-- ==== Sys2Proof/Word.lean ====
section
/-! DEFINITION. The bit vectors the spec names: a byte of `PBUF`, a 16-bit field, a 32-bit register (00_scope.md R13). -/

namespace Sys2Proof

/-- A byte is 8 bits (R13). -/
abbrev Byte := BitVec 8

/-- A 16-bit field: a length, an offset, a checksum word, a port (R13). -/
abbrev Half := BitVec 16

/-- The data of one REG transaction and the width of a register as the host sees it (R21, R70). -/
abbrev Word := BitVec 32

end Sys2Proof
end

