-- ==== Sys2Proof/Config.lean ====
section
/-! DEFINITION. What an implementation fixes (the size of the packet buffer) and the two free values the spec leaves open. -/

namespace Sys2Proof.Config

/-- The least legal `PBUF_SIZE` (00_scope.md R12). -/
def pbufSizeMin : Nat := 20

/-- The greatest legal `PBUF_SIZE` (00_scope.md R12). -/
def pbufSizeMax : Nat := 65535

/-- The spec's default for `PBUF_SIZE` (00_scope.md R12). The machine after reset has this size. DESIGN CHOICE, log 1. -/
def pbufSizeDefault : Nat := 2048

/-- FREE VALUE (70_reset_and_hazards.md R312, U1, D30): what the byte at an index holds after the given power-on reset
until the host first writes it. Nothing constrains it. DESIGN CHOICE (its form), log 2. -/
opaque powerOnByte : Nat → Nat → Byte

/-- FREE VALUE (70_reset_and_hazards.md R322, U2): what the n-th read of a result register while a command is in progress
returns. Nothing constrains it, and each such read uses a fresh n. DESIGN CHOICE (its form), log 3. -/
opaque busyRead : Nat → Word

end Sys2Proof.Config
end

