-- ==== Sys2Proof/Syntax.lean ====
section
/-! DEFINITION. The instructions: one constructor for each row of spec/opcode_table.json. Six are commands (30_encoding.md
R103); twenty-eight are rows of the (type, code) decoder (30_encoding.md R120 to R124), whose operands are the key's bits that
the row leaves free. -/

namespace Sys2Proof

/-- One row of the opcode table, with the operands its encoding carries. -/
inductive Instr where
  /-- `NOP`, command word 0 (R103, R265). -/
  | nop
  /-- `CSUM`, command word 1 (R103, R155); its range stands in `ARG_OFF` and `ARG_LEN` (R104). -/
  | csum
  /-- `PARSE_IP`, command word 2 (R103, R191). -/
  | parseIp
  /-- `PARSE_ICMP`, command word 3 (R103, R230); its range stands in `ARG_OFF` and `ARG_LEN` (R104). -/
  | parseIcmp
  /-- `CLASSIFY`, command word 4 (R103, R231). -/
  | classify
  /-- `CLEAR`, command word 5 (R103, R266). -/
  | clear
  /-- `ICMP.DestinationUnreachable.NetworkUnreachable`, type 3 code 0 (R122, R213). -/
  | icmpDestUnreachNetwork
  /-- `ICMP.DestinationUnreachable.HostUnreachable`, type 3 code 1 (R122, R213). -/
  | icmpDestUnreachHost
  /-- `ICMP.DestinationUnreachable.ProtocolUnreachable`, type 3 code 2 (R122, R213). -/
  | icmpDestUnreachProtocol
  /-- `ICMP.DestinationUnreachable.PortUnreachable`, type 3 code 3 (R122, R213). -/
  | icmpDestUnreachPort
  /-- `ICMP.DestinationUnreachable.NeedsFragment`, type 3 code 4 (R122, R213). -/
  | icmpDestUnreachNeedsFragment
  /-- `ICMP.DestinationUnreachable.SourceRouteFailed`, type 3 code 5 (R122, R213). -/
  | icmpDestUnreachSourceRouteFailed
  /-- `ICMP.Redirect.Network`, type 5 code 0 (R123, R215). -/
  | icmpRedirectNetwork
  /-- `ICMP.Redirect.Host`, type 5 code 1 (R123, R215). -/
  | icmpRedirectHost
  /-- `ICMP.Redirect.TosNetwork`, type 5 code 2 (R123, R215). -/
  | icmpRedirectTosNetwork
  /-- `ICMP.Redirect.TosHost`, type 5 code 3 (R123, R215). -/
  | icmpRedirectTosHost
  /-- `ICMP.TimeExceeded.InTransit`, type 11 code 0 (R124, R218). -/
  | icmpTimeExceededInTransit
  /-- `ICMP.TimeExceeded.Reassembly`, type 11 code 1 (R124, R218). -/
  | icmpTimeExceededReassembly
  /-- `ICMP.EchoReply`, type 0 (R120, R211). -/
  | icmpEchoReply (code : Byte)
  /-- `ICMP.EchoRequest`, type 8 (R120, R212). -/
  | icmpEchoRequest (code : Byte)
  /-- `ICMP.DestinationUnreachable`, type 3 (R120, R213). The codes of the type's code table have rows of their own. -/
  | icmpDestinationUnreachable (code : Byte)
  /-- `ICMP.SourceQuench`, type 4 (R120, R214). -/
  | icmpSourceQuench (code : Byte)
  /-- `ICMP.Redirect`, type 5 (R120, R215). The codes of the type's code table have rows of their own. -/
  | icmpRedirect (code : Byte)
  /-- `ICMP.RouterAdvertisement`, type 9 (R120, R216). -/
  | icmpRouterAdvertisement (code : Byte)
  /-- `ICMP.RouterSolicitation`, type 10 (R120, R217). -/
  | icmpRouterSolicitation (code : Byte)
  /-- `ICMP.TimeExceeded`, type 11 (R120, R218). The codes of the type's code table have rows of their own. -/
  | icmpTimeExceeded (code : Byte)
  /-- `ICMP.ParameterProblem`, type 12 (R120, R219). -/
  | icmpParameterProblem (code : Byte)
  /-- `ICMP.Timestamp`, type 13 (R120, R220). -/
  | icmpTimestamp (code : Byte)
  /-- `ICMP.TimestampReply`, type 14 (R120, R221). -/
  | icmpTimestampReply (code : Byte)
  /-- `ICMP.InfoRequest`, type 15 (R120, R222). -/
  | icmpInfoRequest (code : Byte)
  /-- `ICMP.InfoReply`, type 16 (R120, R223). -/
  | icmpInfoReply (code : Byte)
  /-- `ICMP.AddressMaskRequest`, type 17 (R120, R224). -/
  | icmpAddressMaskRequest (code : Byte)
  /-- `ICMP.AddressMaskReply`, type 18 (R120, R225). -/
  | icmpAddressMaskReply (code : Byte)
  /-- `ICMP.Unknown`, every type without a row of its own (R120, R226). -/
  | icmpUnknown (type code : Byte)
  deriving DecidableEq, Repr

end Sys2Proof
end

