-- ==== Sys2Proof/Machine/State.lean ====
section
/-! DEFINITION. The state of the block (10_state.md R20 to R68), of the host that drives it, and the reasons the model stops.
Plain data throughout. Default field values are the reset values of 10_state.md R21. -/

namespace Sys2Proof.Machine

/-- `STATUS.OUTCOME` (10_state.md R23, 60_exceptions.md R283): values 0 to 3 in this order. -/
inductive CmdOutcome where
  | none | ok | foreign | error
  deriving DecidableEq, Repr

/-- The error codes 1 to 7 of `STATUS.ERR`, in this order (60_exceptions.md R281). -/
inductive ErrCode where
  | tooShort | badVersion | badIhl | notIcmp | icmpShort | range | badCmd
  deriving DecidableEq, Repr

/-- The fields of `STATUS` (10_state.md R23). `BUSY` is not stored: it is 1 exactly while the engine is not idle (log 11).
The reserved bits are hard-wired to 0 (log 18). -/
structure Status where
  done : Bool := false
  outcome : CmdOutcome := .none
  err : Option ErrCode := Option.none
  wLenMismatch : Bool := false
  wUnkType : Bool := false
  wUnkCode : Bool := false
  wEmbBad : Bool := false
  wFieldTrunc : Bool := false
  sBusyWr : Bool := false
  deriving DecidableEq, Repr

/-- The IP group, offsets 0x20 to 0x3C: the parsed IPv4 header (10_state.md R30 to R37). -/
structure IpGroup where
  w0 : BitVec 32 := 0
  w1 : BitVec 32 := 0
  w2 : BitVec 32 := 0
  src : BitVec 32 := 0
  dst : BitVec 32 := 0
  hlen : BitVec 6 := 0
  optlen : BitVec 6 := 0
  efflen : BitVec 16 := 0
  deriving DecidableEq, Repr

/-- The classes of 30_encoding.md R120, numbered 0 to 16 in this order; `noMessage` is the spec's `NONE`. -/
inductive IcmpClass where
  | noMessage
  | echoReply | echoRequest | destinationUnreachable | sourceQuench | redirect
  | routerAdvertisement | routerSolicitation | timeExceeded | parameterProblem
  | timestamp | timestampReply | infoRequest | infoReply
  | addressMaskRequest | addressMaskReply | unknown
  deriving DecidableEq, Repr

/-- The IC group, offsets 0x40 to 0x78: the parsed ICMP message (10_state.md R38 to R52). `cls` and `codeKnown` are the two
fields of `IC_CLASS`. -/
structure IcGroup where
  off : BitVec 16 := 0
  len : BitVec 16 := 0
  w0 : BitVec 32 := 0
  w1 : BitVec 32 := 0
  cls : IcmpClass := .noMessage
  codeKnown : Bool := false
  ident : BitVec 16 := 0
  seq : BitVec 16 := 0
  gateway : BitVec 32 := 0
  mtu : BitVec 16 := 0
  pointer : BitVec 8 := 0
  raCount : BitVec 8 := 0
  raLifetime : BitVec 16 := 0
  mask : BitVec 32 := 0
  payOff : BitVec 16 := 0
  payLen : BitVec 16 := 0
  deriving DecidableEq, Repr

/-- The EM group, offsets 0x80 to 0x9C: the embedded datagram (10_state.md R53 to R60). -/
structure EmGroup where
  embValid : Bool := false
  portsValid : Bool := false
  off : BitVec 16 := 0
  hlen : BitVec 6 := 0
  proto : BitVec 8 := 0
  src : BitVec 32 := 0
  dst : BitVec 32 := 0
  sport : BitVec 16 := 0
  dport : BitVec 16 := 0
  deriving DecidableEq, Repr

/-- What the engine is doing. `holding v` is the hidden pending command of 10_state.md R63 and 45_control_commands.md R261.
`dispatching` is the point inside a completion step where icmp_parse has written the common header and selects the class rule
(43_icmp_classify.md R204): no run from a state that is not there is ever there between two steps (log 6). -/
inductive Engine where
  | idle
  | holding (word : BitVec 32)
  | dispatching
  deriving DecidableEq, Repr

/-- One action of the host or of the platform: the four transactions of 20_memory.md R70 (offsets and indices are numbers, so
that those outside the interface can be refused by name, U3), the two pseudo-instructions of 30_encoding.md R131 whose course
depends on what a read returns (`WAIT` and `PUTCSUM`), and the reset event of 70_reset_and_hazards.md R310, which is a power-on
reset or not (R312). -/
inductive HostAction where
  | wr32 (off : Nat) (v : BitVec 32)
  | rd32 (off : Nat)
  | wr8 (i : Nat) (b : BitVec 8)
  | rd8 (i : Nat)
  | wait
  | putCsum (i : Nat)
  | reset (powerOn : Bool)
  deriving DecidableEq, Repr

/-- A value that a read transaction returned (20_memory.md R70). -/
inductive HostRead where
  | reg (v : BitVec 32)
  | byte (b : BitVec 8)
  deriving DecidableEq, Repr

/-- The host agent and the schedule. MODEL's own (log 3, log 4, log 5). -/
structure HostAgent where
  /-- what the host and the platform will still do, the next action first -/
  script : List HostAction := []
  /-- what the reads returned, oldest first -/
  returned : List HostRead := []
  /-- for each command accepted from now on, how many host actions are taken before its completion step -/
  schedule : List Nat := []
  /-- the same number for the command now pending -/
  delay : Nat := 0
  /-- how many unspecified reads there were (R322) -/
  freshReads : Nat := 0
  deriving DecidableEq, Repr

/-- The bytes of `PBUF` that the host has written since power-on, as (index, byte) pairs with the indices strictly rising
(log 2). -/
abbrev Memory := List Host.Cell

/-- What an index that is not listed holds in the list itself: nothing. What such a byte reads as is `State.byte`'s to say
(log 2). -/
def Memory.unlisted : Option Byte := none

/-- The canonical form of `PBUF`'s list: indices strictly rising and inside the buffer, and no entry equal to what an unlisted
index holds. -/
abbrev Memory.wf (size : Nat) (m : Memory) : Prop :=
  m.Pairwise (fun x y => x.1 < y.1) ∧ ∀ c ∈ m, c.1 < size ∧ some c.2 ≠ Memory.unlisted

/-- The machine: the block of 10_state.md R20 and the host that drives it. -/
structure State where
  /-- `STATUS`, offset 0x04, less `BUSY` (R23) -/
  status : Status := {}
  /-- `PKT_LEN`, offset 0x08 (R24) -/
  pktLen : BitVec 16 := 0
  /-- `ARG_OFF`, offset 0x0C (R25) -/
  argOff : BitVec 16 := 0
  /-- `ARG_LEN`, offset 0x10 (R26) -/
  argLen : BitVec 16 := 0
  /-- `CSUM_RES`, offset 0x18 (R28) -/
  csumRes : BitVec 16 := 0
  /-- the IP group -/
  ip : IpGroup := {}
  /-- the IC group -/
  ic : IcGroup := {}
  /-- the EM group -/
  em : EmGroup := {}
  /-- the hidden state of the engine (R63) -/
  engine : Engine := .idle
  /-- the parameter `PBUF_SIZE` (00_scope.md R12); no step changes it (log 1) -/
  pbufSize : Nat := Config.pbufSizeDefault
  /-- the written bytes of `PBUF` (R61) -/
  pbuf : Memory := []
  /-- which power-on the unwritten bytes date from (70_reset_and_hazards.md R312) -/
  powerCycles : Nat := 0
  /-- the host agent and the schedule -/
  host : HostAgent := {}
  deriving DecidableEq, Repr

/-- The machine right after a power-on reset (10_state.md R67, 70_reset_and_hazards.md R313): every register 0, the engine idle,
`PBUF` unspecified, and a host that has nothing to do. -/
def State.reset : State :=
  { status := {}, pktLen := 0, argOff := 0, argLen := 0, csumRes := 0, ip := {}, ic := {}, em := {}, engine := .idle,
    pbufSize := Config.pbufSizeDefault, pbuf := [], powerCycles := 0, host := {} }

/-- Why the model stops: a host access at an address that does not exist. The block itself stops nowhere (93_implementation_defined.md:
"Nothing in the block is treated as `stuck`"). -/
inductive Fault where
  /-- Raised by a `WR32` or `RD32` beyond offset 0xFFC (20_memory.md R72, U3). Safe: the spec states no result (log 9). -/
  | noSuchRegister (off : Nat)
  /-- Raised by a `WR8` or `RD8` at an index that is not below `PBUF_SIZE` (20_memory.md R73, U3). Safe: the spec states no
  result (log 9). -/
  | noSuchBufferByte (i : Nat)
  deriving DecidableEq, Repr

/-- Why the model refuses to go on. -/
inductive Refusal where
  /-- Raised by nothing: every instruction has its meaning. Safe. -/
  | notModelled (mnemonic : String)
  /-- Raised by a `WR32` or `RD32` at an offset that is not a multiple of 4 (20_memory.md R72: "a model refuses it", U3). Safe:
  the spec states no result (log 9). -/
  | misalignedRegister (off : Nat)
  deriving DecidableEq, Repr

/-- The three outcomes of a step of this machine. -/
abbrev Outcome := Host.Outcome State Fault Refusal

end Sys2Proof.Machine
end

