-- ==== Sys2Proof/Machine/Operands.lean ====
section
/-! DEFINITION. What the engine reads: the constants of 00_scope.md R10 and R11, the byte cursor of R17, the operands of the
commands, the fields of the wire formats (30_encoding.md R110 to R118), and the two tables of the classification (R120 to
R125). -/

namespace Sys2Proof.Machine

/-- `PAIR_ID`, the echo pairing identifier (R10, 10_state.md R27). -/
def pairId : Half := 0x4242

/-- `IP_MIN_HDR`, the size of an IPv4 header without options (R10). -/
def ipMinHdr : Nat := 20

/-- `IP_VERSION` (R10). -/
def ipVersion : BitVec 4 := 4

/-- `IHL_MIN`, in 32-bit words (R10). -/
def ihlMin : Nat := 5

/-- `PORT_BYTES`: the two ports past the embedded header (R10). -/
def portBytes : Nat := 4

/-- `PROTO_ICMP` (R11; the spec marks it general knowledge G2). UNVERIFIED, log 8. -/
def protoIcmp : Byte := 1

/-- `PROTO_TCP` (R11, G2). UNVERIFIED, log 8. -/
def protoTcp : Byte := 6

/-- `PROTO_UDP` (R11, G2). UNVERIFIED, log 8. -/
def protoUdp : Byte := 17

/-- `ICMP_MIN_HDR`, in bytes (R11, G3). UNVERIFIED, log 8. -/
def icmpMinHdr : Nat := 8

/-- The byte listed for an index, if any. -/
def Memory.find : Memory → Nat → Option Byte
  | [], _ => none
  | (a, b) :: m, i => if a = i then some b else Memory.find m i

/-- `PBUF[i]` (00_scope.md R16): the byte the host wrote, or the free value of an index it has not written since power-on
(70_reset_and_hazards.md R312, log 2). -/
def State.byte (s : State) (i : Nat) : Byte :=
  (Memory.find s.pbuf i).getD (Config.powerOnByte s.powerCycles i)

/-- `be16(i)`: the byte at the lower index is the more significant (00_scope.md R17, 20_memory.md R74). -/
def State.be16 (s : State) (i : Nat) : Half := (s.byte i ++ s.byte (i + 1)).setWidth 16

/-- `be32(i)` (00_scope.md R17). -/
def State.be32 (s : State) (i : Nat) : Word :=
  (s.byte i ++ s.byte (i + 1) ++ s.byte (i + 2) ++ s.byte (i + 3)).setWidth 32

/-- The bytes of `PBUF` from an index on, in order. -/
def State.bytes (s : State) (off len : Nat) : List Byte := (List.range' off len).map s.byte

/-- The range of a CMD-R command is legal iff `off + len <= PKT_LEN`, with no wrap (30_encoding.md R104). -/
def State.rangeLegal (s : State) : Bool := decide (s.argOff.toNat + s.argLen.toNat ≤ s.pktLen.toNat)

/-- Bits 7:4 of a byte: the version field of an IPv4 header's first byte (30_encoding.md R110). -/
def highNibble (b : Byte) : BitVec 4 := b.extractLsb' 4 4

/-- Bits 3:0 of a byte: the IHL field (30_encoding.md R110). -/
def lowNibble (b : Byte) : BitVec 4 := b.extractLsb' 0 4

/-- The header length in bytes, `IHL * 4` (30_encoding.md R111). -/
def headerBytes (b : Byte) : Nat := (lowNibble b).toNat * 4

/-- Bits 31:24 of a register. -/
def byte3 (w : Word) : Byte := w.extractLsb' 24 8

/-- Bits 23:16 of a register. -/
def byte2 (w : Word) : Byte := w.extractLsb' 16 8

/-- Bits 31:16 of a register. -/
def upperHalf (w : Word) : Half := w.extractLsb' 16 16

/-- Bits 15:0 of a register. -/
def lowerHalf (w : Word) : Half := w.extractLsb' 0 16

/-- How many bytes lie from an index to the exclusive limit: a mathematical integer, which may be negative (00_scope.md R14,
42_ipv4_parse.md R193). -/
def remaining (off lim : Nat) : Int := (lim : Int) - (off : Int)

/-- The exclusive limit of the ICMP message that the IC group describes: `IC_OFF + IC_LEN` (10_state.md R38, R39). -/
def IcGroup.limit (g : IcGroup) : Nat := g.off.toNat + g.len.toNat

/-- The class of a message, by its type alone (30_encoding.md R120; type numbers other than 3, 5 and 11 are G4). UNVERIFIED,
log 8. -/
def classOf (type : Byte) : IcmpClass :=
  match type.toNat with
  | 0 => .echoReply
  | 8 => .echoRequest
  | 3 => .destinationUnreachable
  | 4 => .sourceQuench
  | 5 => .redirect
  | 9 => .routerAdvertisement
  | 10 => .routerSolicitation
  | 11 => .timeExceeded
  | 12 => .parameterProblem
  | 13 => .timestamp
  | 14 => .timestampReply
  | 15 => .infoRequest
  | 16 => .infoReply
  | 17 => .addressMaskRequest
  | 18 => .addressMaskReply
  | _ => .unknown

/-- The greatest code in the code table of a type, for the three types that have one (`CODE_TABLE`, 30_encoding.md R122 to R124,
at the spec's default). DESIGN CHOICE of the default, log 7. -/
def codeTable (type : Byte) : Option Nat :=
  match type.toNat with
  | 3 => some 5
  | 5 => some 3
  | 11 => some 1
  | _ => none

/-- `code_known(type, code)` (43_icmp_classify.md R205). -/
def codeKnown (type code : Byte) : Bool :=
  match codeTable type with
  | none => true
  | some greatest => decide (code.toNat ≤ greatest)

/-- `IC_CLASS.CLASS` as a number (30_encoding.md R120). -/
def classNumber (c : IcmpClass) : BitVec 5 :=
  match c with
  | .noMessage => 0
  | .echoReply => 1
  | .echoRequest => 2
  | .destinationUnreachable => 3
  | .sourceQuench => 4
  | .redirect => 5
  | .routerAdvertisement => 6
  | .routerSolicitation => 7
  | .timeExceeded => 8
  | .parameterProblem => 9
  | .timestamp => 10
  | .timestampReply => 11
  | .infoRequest => 12
  | .infoReply => 13
  | .addressMaskRequest => 14
  | .addressMaskReply => 15
  | .unknown => 16

/-- The five classes that carry an embedded datagram (30_encoding.md R127). -/
def errorReporting (c : IcmpClass) : Bool :=
  match c with
  | .destinationUnreachable | .sourceQuench | .redirect | .timeExceeded | .parameterProblem => true
  | .noMessage | .echoReply | .echoRequest | .routerAdvertisement | .routerSolicitation | .timestamp | .timestampReply
  | .infoRequest | .infoReply | .addressMaskRequest | .addressMaskReply | .unknown => false

end Sys2Proof.Machine
end

