-- ==== Sys2Proof/Machine/Flags.lean ====
section
/-! DEFINITION. The flags of the block: the fields of `STATUS` as the host reads them, and the operations that set them
(10_state.md R23, R64; 60_exceptions.md R281 to R283). -/

namespace Sys2Proof.Machine

/-- `STATUS.BUSY` (10_state.md R23): a command is accepted and not completed (log 11). -/
def State.busy (s : State) : Bool :=
  match s.engine with
  | .idle => false
  | .holding _ => true
  | .dispatching => true

/-- `STATUS.OUTCOME` as a number (60_exceptions.md R283). -/
def outcomeNumber (o : CmdOutcome) : BitVec 2 :=
  match o with
  | .none => 0
  | .ok => 1
  | .foreign => 2
  | .error => 3

/-- `STATUS.ERR` as a number: 0 when there is no error (60_exceptions.md R281). -/
def errNumber (e : Option ErrCode) : BitVec 4 :=
  match e with
  | none => 0
  | some .tooShort => 1
  | some .badVersion => 2
  | some .badIhl => 3
  | some .notIcmp => 4
  | some .icmpShort => 5
  | some .range => 6
  | some .badCmd => 7

/-- `STATUS` as `RD32` returns it (10_state.md R23): bit 16 `S_BUSY_WR`, bits 12:8 the warnings, bits 7:4 `ERR`, bits 3:2
`OUTCOME`, bit 1 `DONE`, bit 0 `BUSY`; the reserved bits are 0. -/
def statusWord (s : State) : Word :=
  BitVec.ofNat 32
    (s.busy.toNat + s.status.done.toNat * 2 + (outcomeNumber s.status.outcome).toNat * 2 ^ 2
      + (errNumber s.status.err).toNat * 2 ^ 4 + s.status.wLenMismatch.toNat * 2 ^ 8 + s.status.wUnkType.toNat * 2 ^ 9
      + s.status.wUnkCode.toNat * 2 ^ 10 + s.status.wEmbBad.toNat * 2 ^ 11 + s.status.wFieldTrunc.toNat * 2 ^ 12
      + s.status.sBusyWr.toNat * 2 ^ 16)

/-- `IC_CLASS` as `RD32` returns it (10_state.md R42). -/
def icClassWord (g : IcGroup) : Word :=
  BitVec.ofNat 32 ((classNumber g.cls).toNat + g.codeKnown.toNat * 2 ^ 8)

/-- `EM_FLAGS` as `RD32` returns it (10_state.md R53). -/
def emFlagsWord (g : EmGroup) : Word :=
  BitVec.ofNat 32 (g.embValid.toNat + g.portsValid.toNat * 2)

/-- `STATUS[15:0] <- 0`, less `BUSY`; `S_BUSY_WR` stays (45_control_commands.md R261). -/
def Status.cleared (st : Status) : Status := { sBusyWr := st.sBusyWr }

/-- `STATUS.W_LEN_MISMATCH <- 1` if the condition holds (42_ipv4_parse.md R186). -/
def State.warnLenMismatch (c : Bool) (s : State) : State :=
  if c then { s with status := { s.status with wLenMismatch := true } } else s

/-- `STATUS.W_UNK_TYPE <- 1` if the condition holds (43_icmp_classify.md R204, R226). -/
def State.warnUnkType (c : Bool) (s : State) : State :=
  if c then { s with status := { s.status with wUnkType := true } } else s

/-- `STATUS.W_UNK_CODE <- 1` if the condition holds (43_icmp_classify.md R204, R206). -/
def State.warnUnkCode (c : Bool) (s : State) : State :=
  if c then { s with status := { s.status with wUnkCode := true } } else s

/-- `STATUS.W_EMB_BAD <- 1` (44_embedded_datagram.md R252). -/
def State.warnEmbBad (s : State) : State := { s with status := { s.status with wEmbBad := true } }

/-- `STATUS.W_FIELD_TRUNC <- 1` (43_icmp_classify.md R225). -/
def State.warnFieldTrunc (s : State) : State := { s with status := { s.status with wFieldTrunc := true } }

/-- `STATUS.S_BUSY_WR <- 1`, all that an ignored write does (70_reset_and_hazards.md R321). -/
def State.ignoredWrite (s : State) : State := { s with status := { s.status with sBusyWr := true } }

end Sys2Proof.Machine
end

