-- ==== Sys2Proof/Machine/Ops.lean ====
section
/-! DEFINITION. The named operations over the buffer and the registers, the acceptance of a command, the two ways a command
ends (with an outcome, or by raising an error: 60_exceptions.md R285), and the reset event. There is no return from an error:
"There is no return instruction and nothing to restore" (60_exceptions.md R286). -/

namespace Sys2Proof.Machine

/-- `PBUF[i] <- b` in the list, keeping its canonical form. -/
def Memory.set : Memory → Nat → Byte → Memory
  | [], i, b => [(i, b)]
  | (a, c) :: m, i, b =>
    if i < a then (i, b) :: (a, c) :: m
    else if i = a then (i, b) :: m
    else (a, c) :: Memory.set m i b

/-- `MemWrite(i, 1, b)` (20_memory.md R73): `PBUF[i] <- b`, nothing else changes. -/
def State.setByte (i : Nat) (b : Byte) (s : State) : State := { s with pbuf := Memory.set s.pbuf i b }

/-- The acceptance of a command word other than 0 (45_control_commands.md R261): `STATUS[15:0] <- 0`, `BUSY <- 1`,
`pending <- v`. The delay is the schedule's next entry, or none (log 4). -/
def State.accept (v : Word) (s : State) : State :=
  { s with
    status := s.status.cleared
    engine := .holding v
    host := { s.host with delay := s.host.schedule.headD 0, schedule := s.host.schedule.tail } }

/-- What a command body starts from: `STATUS[15:0]` as its acceptance left it (10_state.md R23, log 12). -/
def State.beginCommand (s : State) : State := { s with status := s.status.cleared }

/-- Every register of the IP group `<- 0`. -/
def State.zeroIp (s : State) : State := { s with ip := {} }

/-- Every register of the IC and EM groups `<- 0` (43_icmp_classify.md R203). -/
def State.zeroIcEm (s : State) : State := { s with ic := {}, em := {} }

/-- The end of a command that did not raise: `OUTCOME`, `ERR` 0, `BUSY <- 0`, `DONE <- 1` (45_control_commands.md R262). -/
def State.finish (o : CmdOutcome) (s : State) : State :=
  { s with status := { s.status with outcome := o, err := none, done := true }, engine := .idle }

/-- Taking the block's exception, `raise E` (60_exceptions.md R285): `OUTCOME <- ERROR`, `ERR <- code(E)`, `BUSY <- 0`,
`DONE <- 1`; what the body has written stays written; nothing else is saved. -/
def State.raise (e : ErrCode) (s : State) : State :=
  { s with status := { s.status with outcome := .error, err := some e, done := true }, engine := .idle }

/-- The completion step of a reserved command word: `raise E_BAD_CMD`, and no other effect (45_control_commands.md R267). -/
def State.completeReserved (s : State) : State := s.beginCommand.raise .badCmd

/-- The result of a guarded step of a parse: a value and the state it leaves, or an error and the state it leaves. -/
inductive Parsed (α : Type) where
  | value (a : α) (s : State)
  | raised (e : ErrCode) (s : State)

/-- The reset event (70_reset_and_hazards.md R310 to R312): every register takes its reset value, a pending command is dropped,
`PBUF` is not touched, but that a power-on makes it unspecified again. The host goes on (log 10). -/
def State.resetEvent (powerOn : Bool) (s : State) : State :=
  { State.reset with
    pbufSize := s.pbufSize
    pbuf := if powerOn then [] else s.pbuf
    powerCycles := if powerOn then s.powerCycles + 1 else s.powerCycles
    host := s.host }

end Sys2Proof.Machine
end

