-- ==== Sys2Proof/Machine/Checksum.lean ====
section
/-! DEFINITION. The checksum function and the command `CSUM` (40_checksum.md). -/

namespace Sys2Proof.Machine

/-- The big-endian 16-bit word of two bytes (40_checksum.md R150: `B[2k] * 256 + B[2k+1]`), in the accumulator's width. -/
def wordOfBytes (hi lo : Byte) : Word := (hi ++ lo).setWidth 32

/-- The sum of the big-endian 16-bit words of a byte sequence in the 32-bit accumulator; an odd last byte is the high byte of a
word whose low byte is 0 (40_checksum.md R150, R151). -/
def addWords : Word → List Byte → Word
  | acc, [] => acc
  | acc, [last] => acc + wordOfBytes last 0
  | acc, hi :: lo :: rest => addWords (acc + wordOfBytes hi lo) rest

/-- One fold: `acc[15:0] + acc[31:16]` (40_checksum.md R150, R158). -/
def foldCarries (acc : Word) : Word :=
  (lowerHalf acc).setWidth 32 + (upperHalf acc).setWidth 32

/-- `checksum(B)` (40_checksum.md R150): the words summed, two folds, the one's complement of the low 16 bits. -/
def checksum (bytes : List Byte) : Half :=
  ~~~ lowerHalf (foldCarries (foldCarries (addWords 0 bytes)))

/-- `CSUM` (40_checksum.md R155). -/
def execCsum (s : State) : Outcome :=
  let t := s.beginCommand
  if s.rangeLegal then
    .next (State.finish .ok { t with csumRes := checksum (s.bytes s.argOff.toNat s.argLen.toNat) })
  else
    .next (State.raise .range { t with csumRes := 0 })

end Sys2Proof.Machine
end

