-- ==== Sys2Proof/Machine/Embedded.lean ====
section
/-! DEFINITION. The embedded datagram and its ports (44_embedded_datagram.md). -/

namespace Sys2Proof.Machine

/-- The protocols whose ports are read: TCP and UDP (44_embedded_datagram.md R254). -/
def hasPorts (proto : Byte) : Bool := proto == protoTcp || proto == protoUdp

/-- The EM registers of a valid embedded header at `e`, less the ports (44_embedded_datagram.md R251). -/
def State.emHeaderOf (e : Nat) (s : State) : EmGroup :=
  { s.em with
    embValid := true
    off := BitVec.ofNat 16 e
    hlen := BitVec.ofNat 6 (headerBytes (s.byte e))
    proto := s.byte (e + 9)
    src := s.be32 (e + 12)
    dst := s.be32 (e + 16) }

/-- The two ports past an embedded header of `ehlen` bytes (44_embedded_datagram.md R251, R254). -/
def State.withPorts (e ehlen : Nat) (s : State) : State :=
  { s with em := { s.em with portsValid := true, sport := s.be16 (e + ehlen), dport := s.be16 (e + ehlen + 2) } }

/-- `emb_parse(e, lim)` (44_embedded_datagram.md R251). It raises nothing and changes no outcome, class or IC register. -/
def embParse (e lim : Nat) (s : State) : State :=
  if remaining e lim < ipMinHdr then s.warnEmbBad
  else if highNibble (s.byte e) ≠ ipVersion ∨ (lowNibble (s.byte e)).toNat < ihlMin then s.warnEmbBad
  else
    let t := { s with em := s.emHeaderOf e }
    if hasPorts (s.byte (e + 9)) then
      if e + headerBytes (s.byte e) + portBytes ≤ lim then t.withPorts e (headerBytes (s.byte e))
      else t.warnEmbBad
    else t

end Sys2Proof.Machine
end

