-- ==== Sys2Proof/Machine/Icmp.lean ====
section
/-! DEFINITION. The ICMP parse and the classification (43_icmp_classify.md): the common header, one rule for each class, and
the meaning of each row of the (type, code) decoder. A row runs at the point of `icmp_parse` where the class rule is selected
(R204), on the message the IC group describes, and ends the command (R262); CLASSIFY and PARSE_ICMP run it inside their own
completion step (log 6). -/

namespace Sys2Proof.Machine

/-- `IC_PAY_OFF <- o + 8`, `IC_PAY_LEN <- rem - 8` (10_state.md R51, R52). -/
def IcGroup.withPayload (g : IcGroup) : IcGroup :=
  { g with payOff := BitVec.ofNat 16 (g.off.toNat + icmpMinHdr), payLen := BitVec.ofNat 16 (g.len.toNat - icmpMinHdr) }

/-- `IC_ID <- IC_W1[31:16]`, `IC_SEQ <- IC_W1[15:0]` (10_state.md R43, R44). -/
def IcGroup.withEcho (g : IcGroup) : IcGroup := { g with ident := upperHalf g.w1, seq := lowerHalf g.w1 }

/-- The call "EM" of the class rules: `emb_parse(o + 8, lim)` (43_icmp_classify.md R227). -/
def State.parseEmbedded (s : State) : State := embParse (s.ic.off.toNat + icmpMinHdr) s.ic.limit s

/-- `EchoReply` (R211): the identifier, the sequence, and the pairing check. -/
def ruleEchoReply (s : State) : State × CmdOutcome :=
  if upperHalf s.ic.w1 ≠ pairId then ({ s with ic := s.ic.withEcho }, .foreign)
  else ({ s with ic := s.ic.withEcho.withPayload }, .ok)

/-- `EchoRequest` (R212). -/
def ruleEchoRequest (s : State) : State × CmdOutcome := ({ s with ic := s.ic.withEcho.withPayload }, .ok)

/-- `DestinationUnreachable` (R213): the next-hop MTU for code 4 only, then EM. -/
def ruleDestinationUnreachable (code : Byte) (s : State) : State × CmdOutcome :=
  (State.parseEmbedded (if code = 4 then { s with ic := { s.ic with mtu := lowerHalf s.ic.w1 } } else s), .ok)

/-- `SourceQuench` (R214): EM only. -/
def ruleSourceQuench (s : State) : State × CmdOutcome := (s.parseEmbedded, .ok)

/-- `Redirect` (R215): the gateway address, then EM. -/
def ruleRedirect (s : State) : State × CmdOutcome :=
  (State.parseEmbedded { s with ic := { s.ic with gateway := s.ic.w1 } }, .ok)

/-- `RouterAdvertisement` (R216): the count and the lifetime. -/
def ruleRouterAdvertisement (s : State) : State × CmdOutcome :=
  ({ s with ic := { s.ic with raCount := byte3 s.ic.w1, raLifetime := lowerHalf s.ic.w1 } }, .ok)

/-- `TimeExceeded` (R218): EM only. -/
def ruleTimeExceeded (s : State) : State × CmdOutcome := (s.parseEmbedded, .ok)

/-- `ParameterProblem` (R219): the pointer, then EM. -/
def ruleParameterProblem (s : State) : State × CmdOutcome :=
  (State.parseEmbedded { s with ic := { s.ic with pointer := byte3 s.ic.w1 } }, .ok)

/-- `AddressMaskReply` (R225): the mask, if the message reaches it. -/
def ruleAddressMaskReply (s : State) : State × CmdOutcome :=
  if icmpMinHdr + 4 ≤ s.ic.len.toNat then
    ({ s with ic := { s.ic with mask := s.be32 (s.ic.off.toNat + icmpMinHdr) } }, .ok)
  else (s.warnFieldTrunc, .ok)

/-- The class rule of a class: exactly one runs (R204). Seven classes write no field of their own (R217, R220 to R224, R226). -/
def classRule (c : IcmpClass) (code : Byte) (s : State) : State × CmdOutcome :=
  match c with
  | .noMessage => (s, .ok)
  | .echoReply => ruleEchoReply s
  | .echoRequest => ruleEchoRequest s
  | .destinationUnreachable => ruleDestinationUnreachable code s
  | .sourceQuench => ruleSourceQuench s
  | .redirect => ruleRedirect s
  | .routerAdvertisement => ruleRouterAdvertisement s
  | .routerSolicitation => (s, .ok)
  | .timeExceeded => ruleTimeExceeded s
  | .parameterProblem => ruleParameterProblem s
  | .timestamp => (s, .ok)
  | .timestampReply => (s, .ok)
  | .infoRequest => (s, .ok)
  | .infoReply => (s, .ok)
  | .addressMaskRequest => (s, .ok)
  | .addressMaskReply => ruleAddressMaskReply s
  | .unknown => (s, .ok)

/-- `IC_CLASS.CLASS <- class`, `IC_CLASS.CODE_KNOWN <- known`, `W_UNK_TYPE` for class `Unknown`, `W_UNK_CODE` for an unknown
code (R204, R206, R226). -/
def State.classified (c : IcmpClass) (known : Bool) (s : State) : State :=
  State.warnUnkCode (!known) (State.warnUnkType (decide (c = .unknown)) { s with ic := { s.ic with cls := c, codeKnown := known } })

/-- The end of `icmp_parse` (R204) from the selection of the class on, and of the command: the class and the warnings, the class
rule, the outcome. -/
def runClass (c : IcmpClass) (code : Byte) (known : Bool) (s : State) : State :=
  let r := classRule c code (s.classified c known)
  r.1.finish r.2

/-- The start of `icmp_parse` (R201, R202, R204): the length floor and the common header. -/
def icmpHeader (off lim : Nat) (s : State) : Parsed Unit :=
  if remaining off lim < icmpMinHdr then .raised .icmpShort s
  else .value ()
    { s with
      engine := .dispatching
      ic := { s.ic with
        off := BitVec.ofNat 16 off, len := BitVec.ofNat 16 (remaining off lim).toNat,
        w0 := s.be32 off, w1 := s.be32 (off + 4) } }

/-- The selection of R204: the class by the type byte, `CODE_KNOWN` by the code table, both of `IC_W0`. -/
def dispatchClass (s : State) : State :=
  runClass (classOf (byte3 s.ic.w0)) (byte2 s.ic.w0) (codeKnown (byte3 s.ic.w0) (byte2 s.ic.w0)) s

/-- `icmp_parse(off, lim)` (R204) and the end of the command that called it. -/
def icmpParse (off lim : Nat) (s : State) : State :=
  match icmpHeader off lim s with
  | .value _ t => dispatchClass t
  | .raised e t => t.raise e

/-- `ICMP.DestinationUnreachable.NetworkUnreachable` (R122, R213): class destinationUnreachable, code 0, `CODE_KNOWN = 1` (R121). -/
def execIcmpDestUnreachNetwork (s : State) : Outcome := .next (runClass .destinationUnreachable 0 true s)

/-- `ICMP.DestinationUnreachable.HostUnreachable` (R122, R213): class destinationUnreachable, code 1, `CODE_KNOWN = 1` (R121). -/
def execIcmpDestUnreachHost (s : State) : Outcome := .next (runClass .destinationUnreachable 1 true s)

/-- `ICMP.DestinationUnreachable.ProtocolUnreachable` (R122, R213): class destinationUnreachable, code 2, `CODE_KNOWN = 1` (R121). -/
def execIcmpDestUnreachProtocol (s : State) : Outcome := .next (runClass .destinationUnreachable 2 true s)

/-- `ICMP.DestinationUnreachable.PortUnreachable` (R122, R213): class destinationUnreachable, code 3, `CODE_KNOWN = 1` (R121). -/
def execIcmpDestUnreachPort (s : State) : Outcome := .next (runClass .destinationUnreachable 3 true s)

/-- `ICMP.DestinationUnreachable.NeedsFragment` (R122, R213): class destinationUnreachable, code 4, `CODE_KNOWN = 1` (R121). -/
def execIcmpDestUnreachNeedsFragment (s : State) : Outcome := .next (runClass .destinationUnreachable 4 true s)

/-- `ICMP.DestinationUnreachable.SourceRouteFailed` (R122, R213): class destinationUnreachable, code 5, `CODE_KNOWN = 1` (R121). -/
def execIcmpDestUnreachSourceRouteFailed (s : State) : Outcome := .next (runClass .destinationUnreachable 5 true s)

/-- `ICMP.Redirect.Network` (R123, R215): class redirect, code 0, `CODE_KNOWN = 1` (R121). -/
def execIcmpRedirectNetwork (s : State) : Outcome := .next (runClass .redirect 0 true s)

/-- `ICMP.Redirect.Host` (R123, R215): class redirect, code 1, `CODE_KNOWN = 1` (R121). -/
def execIcmpRedirectHost (s : State) : Outcome := .next (runClass .redirect 1 true s)

/-- `ICMP.Redirect.TosNetwork` (R123, R215): class redirect, code 2, `CODE_KNOWN = 1` (R121). -/
def execIcmpRedirectTosNetwork (s : State) : Outcome := .next (runClass .redirect 2 true s)

/-- `ICMP.Redirect.TosHost` (R123, R215): class redirect, code 3, `CODE_KNOWN = 1` (R121). -/
def execIcmpRedirectTosHost (s : State) : Outcome := .next (runClass .redirect 3 true s)

/-- `ICMP.TimeExceeded.InTransit` (R124, R218): class timeExceeded, code 0, `CODE_KNOWN = 1` (R121). -/
def execIcmpTimeExceededInTransit (s : State) : Outcome := .next (runClass .timeExceeded 0 true s)

/-- `ICMP.TimeExceeded.Reassembly` (R124, R218): class timeExceeded, code 1, `CODE_KNOWN = 1` (R121). -/
def execIcmpTimeExceededReassembly (s : State) : Outcome := .next (runClass .timeExceeded 1 true s)

/-- `ICMP.EchoReply` (R211): the code is not examined (R125). -/
def execIcmpEchoReply (code : Byte) (s : State) : Outcome := .next (runClass .echoReply code true s)

/-- `ICMP.EchoRequest` (R212): the code is not examined (R125). -/
def execIcmpEchoRequest (code : Byte) (s : State) : Outcome := .next (runClass .echoRequest code true s)

/-- `ICMP.DestinationUnreachable` (R213): type 3, a code without a row of its own unless the term is ill-formed (log 15). -/
def execIcmpDestinationUnreachable (code : Byte) (s : State) : Outcome :=
  .next (runClass .destinationUnreachable code (codeKnown 3 code) s)

/-- `ICMP.SourceQuench` (R214): the code is not examined (R125). -/
def execIcmpSourceQuench (code : Byte) (s : State) : Outcome := .next (runClass .sourceQuench code true s)

/-- `ICMP.Redirect` (R215): type 5, a code without a row of its own unless the term is ill-formed (log 15). -/
def execIcmpRedirect (code : Byte) (s : State) : Outcome :=
  .next (runClass .redirect code (codeKnown 5 code) s)

/-- `ICMP.RouterAdvertisement` (R216): the code is not examined (R125). -/
def execIcmpRouterAdvertisement (code : Byte) (s : State) : Outcome := .next (runClass .routerAdvertisement code true s)

/-- `ICMP.RouterSolicitation` (R217): the code is not examined (R125). -/
def execIcmpRouterSolicitation (code : Byte) (s : State) : Outcome := .next (runClass .routerSolicitation code true s)

/-- `ICMP.TimeExceeded` (R218): type 11, a code without a row of its own unless the term is ill-formed (log 15). -/
def execIcmpTimeExceeded (code : Byte) (s : State) : Outcome :=
  .next (runClass .timeExceeded code (codeKnown 11 code) s)

/-- `ICMP.ParameterProblem` (R219): the code is not examined (R125). -/
def execIcmpParameterProblem (code : Byte) (s : State) : Outcome := .next (runClass .parameterProblem code true s)

/-- `ICMP.Timestamp` (R220): the code is not examined (R125). -/
def execIcmpTimestamp (code : Byte) (s : State) : Outcome := .next (runClass .timestamp code true s)

/-- `ICMP.TimestampReply` (R221): the code is not examined (R125). -/
def execIcmpTimestampReply (code : Byte) (s : State) : Outcome := .next (runClass .timestampReply code true s)

/-- `ICMP.InfoRequest` (R222): the code is not examined (R125). -/
def execIcmpInfoRequest (code : Byte) (s : State) : Outcome := .next (runClass .infoRequest code true s)

/-- `ICMP.InfoReply` (R223): the code is not examined (R125). -/
def execIcmpInfoReply (code : Byte) (s : State) : Outcome := .next (runClass .infoReply code true s)

/-- `ICMP.AddressMaskRequest` (R224): the code is not examined (R125). -/
def execIcmpAddressMaskRequest (code : Byte) (s : State) : Outcome := .next (runClass .addressMaskRequest code true s)

/-- `ICMP.AddressMaskReply` (R225): the code is not examined (R125). -/
def execIcmpAddressMaskReply (code : Byte) (s : State) : Outcome := .next (runClass .addressMaskReply code true s)

/-- `ICMP.Unknown` (R226): the type stands in `IC_W0.TYPE` already; `CODE_KNOWN = 1`. -/
def execIcmpUnknown (_type code : Byte) (s : State) : Outcome := .next (runClass .unknown code true s)

end Sys2Proof.Machine
end

