-- ==== Sys2Proof/Machine/Ipv4.lean ====
section
/-! DEFINITION. The IPv4 header parse and the command `PARSE_IP` (42_ipv4_parse.md). -/

namespace Sys2Proof.Machine

/-- What `ip_parse` returns (42_ipv4_parse.md R180). -/
structure IpHeader where
  hlen : Nat
  efflen : Nat
  proto : Byte
  deriving DecidableEq, Repr

/-- `efflen = min(be16(2), L)`: "the smaller of the two" (42_ipv4_parse.md R186). -/
def State.effectiveLength (s : State) : Nat := min (s.be16 2).toNat s.pktLen.toNat

/-- The eight registers of the IP group for the header at index 0 (42_ipv4_parse.md R182). -/
def State.ipGroupOf (s : State) : IpGroup :=
  { w0 := s.be32 0
    w1 := s.be32 4
    w2 := s.be32 8
    src := s.be32 12
    dst := s.be32 16
    hlen := BitVec.ofNat 6 (headerBytes (s.byte 0))
    optlen := BitVec.ofNat 6 (headerBytes (s.byte 0) - ipMinHdr)
    efflen := BitVec.ofNat 16 s.effectiveLength }

/-- `ip_parse()` (42_ipv4_parse.md R191): the length floor, the IP group, the version, the header-length floor, and the length
disagreement, which only warns. -/
def ipParse (s : State) : Parsed IpHeader :=
  if s.pktLen.toNat < ipMinHdr then .raised .tooShort s
  else
    let t := { s with ip := s.ipGroupOf }
    if highNibble (s.byte 0) ≠ ipVersion then .raised .badVersion t
    else if (lowNibble (s.byte 0)).toNat < ihlMin then .raised .badIhl t
    else
      .value { hlen := headerBytes (s.byte 0), efflen := s.effectiveLength, proto := s.byte 9 }
        (t.warnLenMismatch (decide ((s.be16 2).toNat ≠ s.pktLen.toNat)))

/-- `PARSE_IP` (42_ipv4_parse.md R191). -/
def execParseIp (s : State) : Outcome :=
  match ipParse s.beginCommand.zeroIp with
  | .value _ t => .next (t.finish .ok)
  | .raised e t => .next (t.raise e)

end Sys2Proof.Machine
end

