-- ==== Sys2Proof/Machine/Commands.lean ====
section
/-! DEFINITION. The commands `PARSE_ICMP` and `CLASSIFY` (43_icmp_classify.md), `NOP` and `CLEAR` (45_control_commands.md). Each
but `NOP` is one atomic completion step (45_control_commands.md R262). -/

namespace Sys2Proof.Machine

/-- `NOP` (45_control_commands.md R265): no state change at all. It runs at the write to `CMD`; no completion step follows. -/
def execNop (s : State) : Outcome := .next s

/-- `PARSE_ICMP` (43_icmp_classify.md R230). -/
def execParseIcmp (s : State) : Outcome :=
  let t := s.beginCommand.zeroIcEm
  if s.rangeLegal then .next (icmpParse s.argOff.toNat (s.argOff.toNat + s.argLen.toNat) t)
  else .next (t.raise .range)

/-- `CLASSIFY` (43_icmp_classify.md R231): `ip_parse`, the protocol test, `icmp_parse` on what follows the header. -/
def execClassify (s : State) : Outcome :=
  match ipParse s.beginCommand.zeroIp.zeroIcEm with
  | .raised e t => .next (t.raise e)
  | .value h t =>
    if h.proto ≠ protoIcmp then .next (t.raise .notIcmp)
    else .next (icmpParse h.hlen h.efflen t)

/-- `CLEAR` (45_control_commands.md R266): the result registers and the sticky flag. -/
def execClear (s : State) : Outcome :=
  let t := s.beginCommand.zeroIp.zeroIcEm
  .next (State.finish .ok { t with csumRes := 0, status := { t.status with sBusyWr := false } })

end Sys2Proof.Machine
end

