-- ==== Sys2Proof/Machine/Dispatch.lean ====
section
/-! DEFINITION. The meaning of every instruction: one arm for each constructor of Instr. -/

namespace Sys2Proof.Machine

def exec (i : Instr) (s : State) : Host.Outcome State Fault Refusal :=
  match i with
  | .nop => Sys2Proof.Machine.execNop s
  | .csum => Sys2Proof.Machine.execCsum s
  | .parseIp => Sys2Proof.Machine.execParseIp s
  | .parseIcmp => Sys2Proof.Machine.execParseIcmp s
  | .classify => Sys2Proof.Machine.execClassify s
  | .clear => Sys2Proof.Machine.execClear s
  | .icmpDestUnreachNetwork => Sys2Proof.Machine.execIcmpDestUnreachNetwork s
  | .icmpDestUnreachHost => Sys2Proof.Machine.execIcmpDestUnreachHost s
  | .icmpDestUnreachProtocol => Sys2Proof.Machine.execIcmpDestUnreachProtocol s
  | .icmpDestUnreachPort => Sys2Proof.Machine.execIcmpDestUnreachPort s
  | .icmpDestUnreachNeedsFragment => Sys2Proof.Machine.execIcmpDestUnreachNeedsFragment s
  | .icmpDestUnreachSourceRouteFailed => Sys2Proof.Machine.execIcmpDestUnreachSourceRouteFailed s
  | .icmpRedirectNetwork => Sys2Proof.Machine.execIcmpRedirectNetwork s
  | .icmpRedirectHost => Sys2Proof.Machine.execIcmpRedirectHost s
  | .icmpRedirectTosNetwork => Sys2Proof.Machine.execIcmpRedirectTosNetwork s
  | .icmpRedirectTosHost => Sys2Proof.Machine.execIcmpRedirectTosHost s
  | .icmpTimeExceededInTransit => Sys2Proof.Machine.execIcmpTimeExceededInTransit s
  | .icmpTimeExceededReassembly => Sys2Proof.Machine.execIcmpTimeExceededReassembly s
  | .icmpEchoReply code => Sys2Proof.Machine.execIcmpEchoReply code s
  | .icmpEchoRequest code => Sys2Proof.Machine.execIcmpEchoRequest code s
  | .icmpDestinationUnreachable code => Sys2Proof.Machine.execIcmpDestinationUnreachable code s
  | .icmpSourceQuench code => Sys2Proof.Machine.execIcmpSourceQuench code s
  | .icmpRedirect code => Sys2Proof.Machine.execIcmpRedirect code s
  | .icmpRouterAdvertisement code => Sys2Proof.Machine.execIcmpRouterAdvertisement code s
  | .icmpRouterSolicitation code => Sys2Proof.Machine.execIcmpRouterSolicitation code s
  | .icmpTimeExceeded code => Sys2Proof.Machine.execIcmpTimeExceeded code s
  | .icmpParameterProblem code => Sys2Proof.Machine.execIcmpParameterProblem code s
  | .icmpTimestamp code => Sys2Proof.Machine.execIcmpTimestamp code s
  | .icmpTimestampReply code => Sys2Proof.Machine.execIcmpTimestampReply code s
  | .icmpInfoRequest code => Sys2Proof.Machine.execIcmpInfoRequest code s
  | .icmpInfoReply code => Sys2Proof.Machine.execIcmpInfoReply code s
  | .icmpAddressMaskRequest code => Sys2Proof.Machine.execIcmpAddressMaskRequest code s
  | .icmpAddressMaskReply code => Sys2Proof.Machine.execIcmpAddressMaskReply code s
  | .icmpUnknown type code => Sys2Proof.Machine.execIcmpUnknown type code s

end Sys2Proof.Machine
end

