-- ==== Sys2Proof/WellFormed.lean ====
section
/-! DEFINITION. Which instruction terms an encoding can give: a row of format `ICMP-T` or `ICMP-ANY` does not hold the keys
that an earlier row of the table takes (30_encoding.md R121). -/

namespace Sys2Proof

/-- The types that have a class of their own (30_encoding.md R120): every other type is `Unknown`. -/
def assignedTypes : List Byte := [0, 3, 4, 5, 8, 9, 10, 11, 12, 13, 14, 15, 16, 17, 18]

/-- A term that some word decodes to. A code of the code table of type 3 (0 to 5), type 5 (0 to 3) or type 11 (0, 1) belongs to
the row of its subcode, and an assigned type does not belong to `ICMP.Unknown` (R121 to R124, R126). -/
def Instr.WellFormed (i : Instr) : Bool :=
  match i with
  | .nop => true
  | .csum => true
  | .parseIp => true
  | .parseIcmp => true
  | .classify => true
  | .clear => true
  | .icmpDestUnreachNetwork => true
  | .icmpDestUnreachHost => true
  | .icmpDestUnreachProtocol => true
  | .icmpDestUnreachPort => true
  | .icmpDestUnreachNeedsFragment => true
  | .icmpDestUnreachSourceRouteFailed => true
  | .icmpRedirectNetwork => true
  | .icmpRedirectHost => true
  | .icmpRedirectTosNetwork => true
  | .icmpRedirectTosHost => true
  | .icmpTimeExceededInTransit => true
  | .icmpTimeExceededReassembly => true
  | .icmpEchoReply _ => true
  | .icmpEchoRequest _ => true
  | .icmpDestinationUnreachable code => decide (5 < code.toNat)
  | .icmpSourceQuench _ => true
  | .icmpRedirect code => decide (3 < code.toNat)
  | .icmpRouterAdvertisement _ => true
  | .icmpRouterSolicitation _ => true
  | .icmpTimeExceeded code => decide (1 < code.toNat)
  | .icmpParameterProblem _ => true
  | .icmpTimestamp _ => true
  | .icmpTimestampReply _ => true
  | .icmpInfoRequest _ => true
  | .icmpInfoReply _ => true
  | .icmpAddressMaskRequest _ => true
  | .icmpAddressMaskReply _ => true
  | .icmpUnknown type _ => !(assignedTypes.contains type)

end Sys2Proof
end

