-- ==== Sys2Proof/Decode.lean ====
section
/-! DEFINITION. The two decoders of the block (30_encoding.md R102 for command words, R121 for ICMP keys), the encoder, and the
reading of an opcode-table word that the host asks for. The decoders are separate: a command word is never matched against an
ICMP row, nor the reverse (INDEX.md). -/

namespace Sys2Proof

/-- A word the engine decodes: the command word written to `CMD` (R101), or the key `type * 256 + code` of the ICMP message
being classified (R121). -/
inductive TableWord where
  | command (w : Word)
  | icmpKey (k : Half)
  deriving DecidableEq, Repr

/-- Why a word is no instruction (30_encoding.md R102, R105). -/
inductive DecodeReject where
  /-- `v[31:8] != 0` -/
  | reservedUpperBits
  /-- `v[7:0]` is none of the six opcodes -/
  | reservedOpcode
  deriving DecidableEq, Repr

/-- The command decoder (30_encoding.md R102, R103): it reads nothing but the word. -/
def decodeCommand (v : Word) : Except DecodeReject Instr :=
  if v.extractLsb' 8 24 = 0 then
    match (v.extractLsb' 0 8).toNat with
    | 0 => .ok .nop
    | 1 => .ok .csum
    | 2 => .ok .parseIp
    | 3 => .ok .parseIcmp
    | 4 => .ok .classify
    | 5 => .ok .clear
    | _ => .error .reservedOpcode
  else .error .reservedUpperBits

/-- One row of the ICMP decoder: it matches a key iff `key AND mask = match` (R121), and makes its instruction from the key's
type and code. -/
structure IcmpRow where
  pattern : Half
  mask : Half
  instr : Byte → Byte → Instr

/-- The rows of format `ICMP-TC` (30_encoding.md R122 to R124). -/
def icmpTcRows : List IcmpRow := [
  ⟨0x0300, 0xFFFF, fun _ _ => .icmpDestUnreachNetwork⟩,
  ⟨0x0301, 0xFFFF, fun _ _ => .icmpDestUnreachHost⟩,
  ⟨0x0302, 0xFFFF, fun _ _ => .icmpDestUnreachProtocol⟩,
  ⟨0x0303, 0xFFFF, fun _ _ => .icmpDestUnreachPort⟩,
  ⟨0x0304, 0xFFFF, fun _ _ => .icmpDestUnreachNeedsFragment⟩,
  ⟨0x0305, 0xFFFF, fun _ _ => .icmpDestUnreachSourceRouteFailed⟩,
  ⟨0x0500, 0xFFFF, fun _ _ => .icmpRedirectNetwork⟩,
  ⟨0x0501, 0xFFFF, fun _ _ => .icmpRedirectHost⟩,
  ⟨0x0502, 0xFFFF, fun _ _ => .icmpRedirectTosNetwork⟩,
  ⟨0x0503, 0xFFFF, fun _ _ => .icmpRedirectTosHost⟩,
  ⟨0x0B00, 0xFFFF, fun _ _ => .icmpTimeExceededInTransit⟩,
  ⟨0x0B01, 0xFFFF, fun _ _ => .icmpTimeExceededReassembly⟩]

/-- The rows of format `ICMP-T` (30_encoding.md R120). -/
def icmpTRows : List IcmpRow := [
  ⟨0x0000, 0xFF00, fun _ code => .icmpEchoReply code⟩,
  ⟨0x0800, 0xFF00, fun _ code => .icmpEchoRequest code⟩,
  ⟨0x0300, 0xFF00, fun _ code => .icmpDestinationUnreachable code⟩,
  ⟨0x0400, 0xFF00, fun _ code => .icmpSourceQuench code⟩,
  ⟨0x0500, 0xFF00, fun _ code => .icmpRedirect code⟩,
  ⟨0x0900, 0xFF00, fun _ code => .icmpRouterAdvertisement code⟩,
  ⟨0x0A00, 0xFF00, fun _ code => .icmpRouterSolicitation code⟩,
  ⟨0x0B00, 0xFF00, fun _ code => .icmpTimeExceeded code⟩,
  ⟨0x0C00, 0xFF00, fun _ code => .icmpParameterProblem code⟩,
  ⟨0x0D00, 0xFF00, fun _ code => .icmpTimestamp code⟩,
  ⟨0x0E00, 0xFF00, fun _ code => .icmpTimestampReply code⟩,
  ⟨0x0F00, 0xFF00, fun _ code => .icmpInfoRequest code⟩,
  ⟨0x1000, 0xFF00, fun _ code => .icmpInfoReply code⟩,
  ⟨0x1100, 0xFF00, fun _ code => .icmpAddressMaskRequest code⟩,
  ⟨0x1200, 0xFF00, fun _ code => .icmpAddressMaskReply code⟩]

/-- The row of format `ICMP-ANY`. -/
def icmpAnyRow : IcmpRow := ⟨0x0000, 0x0000, fun type code => .icmpUnknown type code⟩

/-- A row matches iff `TC AND mask = match` (30_encoding.md R121). -/
def IcmpRow.hits (r : IcmpRow) (k : Half) : Bool := decide (k &&& r.mask = r.pattern)

/-- The first row of a list that matches the key. -/
def firstRow (k : Half) : List IcmpRow → Option IcmpRow
  | [] => none
  | r :: rs => if r.hits k then some r else firstRow k rs

/-- The ICMP decoder: rows `ICMP-TC` first, then `ICMP-T`, then `ICMP-ANY` (30_encoding.md R121). It is total: every key is an
instruction (R126). -/
def decodeIcmp (k : Half) : Instr :=
  ((firstRow k (icmpTcRows ++ icmpTRows)).getD icmpAnyRow).instr (k.extractLsb' 8 8) (k.extractLsb' 0 8)

/-- The decoder of the machine: total, refusing a reserved command word by name. -/
def decode (w : TableWord) : Except DecodeReject Instr :=
  match w with
  | .command v => decodeCommand v
  | .icmpKey k => .ok (decodeIcmp k)

/-- The key of a type and a code: `type * 256 + code` (30_encoding.md R121). -/
def icmpKeyOf (type code : Byte) : Half := (type ++ code).setWidth 16

/-- The encoder, from the same tables (30_encoding.md R103, R120 to R124). -/
def encode (i : Instr) : TableWord :=
  match i with
  | .nop => .command 0
  | .csum => .command 1
  | .parseIp => .command 2
  | .parseIcmp => .command 3
  | .classify => .command 4
  | .clear => .command 5
  | .icmpDestUnreachNetwork => .icmpKey (icmpKeyOf 3 0)
  | .icmpDestUnreachHost => .icmpKey (icmpKeyOf 3 1)
  | .icmpDestUnreachProtocol => .icmpKey (icmpKeyOf 3 2)
  | .icmpDestUnreachPort => .icmpKey (icmpKeyOf 3 3)
  | .icmpDestUnreachNeedsFragment => .icmpKey (icmpKeyOf 3 4)
  | .icmpDestUnreachSourceRouteFailed => .icmpKey (icmpKeyOf 3 5)
  | .icmpRedirectNetwork => .icmpKey (icmpKeyOf 5 0)
  | .icmpRedirectHost => .icmpKey (icmpKeyOf 5 1)
  | .icmpRedirectTosNetwork => .icmpKey (icmpKeyOf 5 2)
  | .icmpRedirectTosHost => .icmpKey (icmpKeyOf 5 3)
  | .icmpTimeExceededInTransit => .icmpKey (icmpKeyOf 11 0)
  | .icmpTimeExceededReassembly => .icmpKey (icmpKeyOf 11 1)
  | .icmpEchoReply code => .icmpKey (icmpKeyOf 0 code)
  | .icmpEchoRequest code => .icmpKey (icmpKeyOf 8 code)
  | .icmpDestinationUnreachable code => .icmpKey (icmpKeyOf 3 code)
  | .icmpSourceQuench code => .icmpKey (icmpKeyOf 4 code)
  | .icmpRedirect code => .icmpKey (icmpKeyOf 5 code)
  | .icmpRouterAdvertisement code => .icmpKey (icmpKeyOf 9 code)
  | .icmpRouterSolicitation code => .icmpKey (icmpKeyOf 10 code)
  | .icmpTimeExceeded code => .icmpKey (icmpKeyOf 11 code)
  | .icmpParameterProblem code => .icmpKey (icmpKeyOf 12 code)
  | .icmpTimestamp code => .icmpKey (icmpKeyOf 13 code)
  | .icmpTimestampReply code => .icmpKey (icmpKeyOf 14 code)
  | .icmpInfoRequest code => .icmpKey (icmpKeyOf 15 code)
  | .icmpInfoReply code => .icmpKey (icmpKeyOf 16 code)
  | .icmpAddressMaskRequest code => .icmpKey (icmpKeyOf 17 code)
  | .icmpAddressMaskReply code => .icmpKey (icmpKeyOf 18 code)
  | .icmpUnknown type code => .icmpKey (icmpKeyOf type code)

/-- The word of the opcode table's own numbering: a row of at most 16 bits is an ICMP key (type in bits 15:8), a wider one a
command word, which the host moves whole (20_memory.md R74), so that its numbering is the register's. -/
def tableWordOf (nbits w : Nat) : TableWord :=
  if nbits ≤ 16 then .icmpKey (BitVec.ofNat 16 w) else .command (BitVec.ofNat 32 w)

/-- What the decoder reads from an opcode-table word of `nbits` bits; a word that has more bits than its row, or a row wider
than a command word, is none. -/
def decodeTableWord (nbits w : Nat) : Option Instr :=
  if 32 < nbits ∨ 2 ^ nbits ≤ w then none else (decode (tableWordOf nbits w)).toOption

end Sys2Proof
end

