-- ==== Sys2Proof/Machine/HostPort.lean ====
section
/-! DEFINITION. The host's side of the block: the register map (10_state.md R21), the four transactions (20_memory.md R70 to
R73), the `WAIT` poll, the reset event, and which agent moves next. -/

namespace Sys2Proof.Machine

/-- The named registers of 10_state.md R21. -/
inductive Reg where
  | cmd | status | pktLen | argOff | argLen | pairId | csumRes
  | ipW0 | ipW1 | ipW2 | ipSrc | ipDst | ipHlen | ipOptlen | ipEfflen
  | icOff | icLen | icW0 | icW1 | icClass | icId | icSeq | icGateway | icMtu | icPointer | icRaCount | icRaLifetime | icMask
  | icPayOff | icPayLen
  | emFlags | emOff | emHlen | emProto | emSrc | emDst | emSport | emDport
  deriving DecidableEq, Repr

/-- One row of the register map: an offset and the register there. -/
abbrev RegRow := Nat × Reg

/-- The control and operand registers, offsets 0x00 to 0x18 (10_state.md R21). -/
def controlMap : List RegRow :=
  [(0x00, .cmd), (0x04, .status), (0x08, .pktLen), (0x0C, .argOff), (0x10, .argLen), (0x14, .pairId), (0x18, .csumRes)]

/-- The IP group, offsets 0x20 to 0x3C. -/
def ipMap : List RegRow :=
  [(0x20, .ipW0), (0x24, .ipW1), (0x28, .ipW2), (0x2C, .ipSrc), (0x30, .ipDst), (0x34, .ipHlen), (0x38, .ipOptlen),
   (0x3C, .ipEfflen)]

/-- The IC group, offsets 0x40 to 0x78. -/
def icMap : List RegRow :=
  [(0x40, .icOff), (0x44, .icLen), (0x48, .icW0), (0x4C, .icW1), (0x50, .icClass), (0x54, .icId), (0x58, .icSeq),
   (0x5C, .icGateway), (0x60, .icMtu), (0x64, .icPointer), (0x68, .icRaCount), (0x6C, .icRaLifetime), (0x70, .icMask),
   (0x74, .icPayOff), (0x78, .icPayLen)]

/-- The EM group, offsets 0x80 to 0x9C. -/
def emMap : List RegRow :=
  [(0x80, .emFlags), (0x84, .emOff), (0x88, .emHlen), (0x8C, .emProto), (0x90, .emSrc), (0x94, .emDst), (0x98, .emSport),
   (0x9C, .emDport)]

/-- The register map: each offset that is not reserved, with its register (10_state.md R21). -/
def registerMap : List RegRow := List.append controlMap (List.append ipMap (List.append icMap emMap))

/-- The register of an offset in a map, if the map names one. -/
def registerIn (off : Nat) : List RegRow → Option Reg
  | [] => none
  | (o, r) :: rest => if o = off then some r else registerIn off rest

/-- The register at an offset of REG; none at a reserved offset (10_state.md R29). -/
def registerAt (off : Nat) : Option Reg := registerIn off registerMap

/-- The value of a register, zero-extended to 32 bits (20_memory.md R72). `CMD` reads as 0 (10_state.md R22); `PAIR_ID` is
hard-wired (R27). -/
def Reg.value (r : Reg) (s : State) : Word :=
  match r with
  | .cmd => 0
  | .status => statusWord s
  | .pktLen => s.pktLen.setWidth 32
  | .argOff => s.argOff.setWidth 32
  | .argLen => s.argLen.setWidth 32
  | .pairId => Sys2Proof.Machine.pairId.setWidth 32
  | .csumRes => s.csumRes.setWidth 32
  | .ipW0 => s.ip.w0
  | .ipW1 => s.ip.w1
  | .ipW2 => s.ip.w2
  | .ipSrc => s.ip.src
  | .ipDst => s.ip.dst
  | .ipHlen => s.ip.hlen.setWidth 32
  | .ipOptlen => s.ip.optlen.setWidth 32
  | .ipEfflen => s.ip.efflen.setWidth 32
  | .icOff => s.ic.off.setWidth 32
  | .icLen => s.ic.len.setWidth 32
  | .icW0 => s.ic.w0
  | .icW1 => s.ic.w1
  | .icClass => icClassWord s.ic
  | .icId => s.ic.ident.setWidth 32
  | .icSeq => s.ic.seq.setWidth 32
  | .icGateway => s.ic.gateway
  | .icMtu => s.ic.mtu.setWidth 32
  | .icPointer => s.ic.pointer.setWidth 32
  | .icRaCount => s.ic.raCount.setWidth 32
  | .icRaLifetime => s.ic.raLifetime.setWidth 32
  | .icMask => s.ic.mask
  | .icPayOff => s.ic.payOff.setWidth 32
  | .icPayLen => s.ic.payLen.setWidth 32
  | .emFlags => emFlagsWord s.em
  | .emOff => s.em.off.setWidth 32
  | .emHlen => s.em.hlen.setWidth 32
  | .emProto => s.em.proto.setWidth 32
  | .emSrc => s.em.src
  | .emDst => s.em.dst
  | .emSport => s.em.sport.setWidth 32
  | .emDport => s.em.dport.setWidth 32

/-- The result registers, which read as an unspecified value while a command is in progress: `CSUM_RES` and the IP, IC and EM
groups. `STATUS`, the operand registers and `PAIR_ID` read correctly at all times (70_reset_and_hazards.md R322). -/
def Reg.isResult (r : Reg) : Bool :=
  match r with
  | .cmd | .status | .pktLen | .argOff | .argLen | .pairId => false
  | .csumRes
  | .ipW0 | .ipW1 | .ipW2 | .ipSrc | .ipDst | .ipHlen | .ipOptlen | .ipEfflen
  | .icOff | .icLen | .icW0 | .icW1 | .icClass | .icId | .icSeq | .icGateway | .icMtu | .icPointer | .icRaCount | .icRaLifetime
  | .icMask | .icPayOff | .icPayLen
  | .emFlags | .emOff | .emHlen | .emProto | .emSrc | .emDst | .emSport | .emDport => true

/-- The last offset of REG (20_memory.md R72). -/
def regLast : Nat := 0xFFC

/-- The value a read of REG returns at an offset when no command is in progress; 0 at a reserved offset (10_state.md R29). -/
def regRead (off : Nat) (s : State) : Word :=
  match registerAt off with
  | none => 0
  | some r => r.value s

/-- The register at the offset reads as an unspecified value in this state (70_reset_and_hazards.md R322). -/
def readsFree (off : Nat) (s : State) : Bool :=
  s.busy && (match registerAt off with
    | none => false
    | some r => r.isResult)

/-- The host is told a value. -/
def State.answer (r : HostRead) (s : State) : State := { s with host := { s.host with returned := s.host.returned ++ [r] } }

/-- The host has taken its next action: the rest of its script is left, and the pending command, if any, is one action closer
to its completion. -/
def State.taken (rest : List HostAction) (s : State) : State :=
  { s with host := { s.host with script := rest, delay := s.host.delay - 1 } }

/-- What `RD32 off` returns: the register, or the next free value if it is unspecified now (70_reset_and_hazards.md R322, U2). -/
def readValue (off : Nat) (s : State) : Word :=
  if readsFree off s then Config.busyRead s.host.freshReads else regRead off s

/-- `RD32 off` (20_memory.md R72): the block does not change; a free value is used once (R322, U2). -/
def rd32 (off : Nat) (s : State) : State :=
  if readsFree off s then
    State.answer (.reg (Config.busyRead s.host.freshReads)) { s with host := { s.host with freshReads := s.host.freshReads + 1 } }
  else s.answer (.reg (regRead off s))

/-- `WR32 off, v` at a register other than `CMD` while no command is in progress (20_memory.md R72; 10_state.md R24 to R26):
`PKT_LEN` clamps at `PBUF_SIZE`, the operand registers take the low 16 bits, every other offset ignores the write. -/
def writeReg (off : Nat) (v : Word) (s : State) : State :=
  match registerAt off with
  | some .pktLen => { s with pktLen := BitVec.ofNat 16 (min (lowerHalf v).toNat s.pbufSize) }
  | some .argOff => { s with argOff := lowerHalf v }
  | some .argLen => { s with argLen := lowerHalf v }
  | _ => s

/-- A write of a command word while no command is in progress (45_control_commands.md R261): the zero word is `NOP` and runs at
once, any other is accepted. -/
def writeCmd (v : Word) (s : State) : Outcome :=
  if v = 0 then execNop s else .next (s.accept v)

/-- `WR32 off, v` (20_memory.md R72; 70_reset_and_hazards.md R321). -/
def wr32 (off : Nat) (v : Word) (s : State) : Outcome :=
  if s.busy then .next s.ignoredWrite
  else if registerAt off = some .cmd then writeCmd v s
  else .next (writeReg off v s)

/-- `WR8 i, b` (20_memory.md R73; 70_reset_and_hazards.md R321). -/
def wr8 (i : Nat) (b : Byte) (s : State) : State := if s.busy then s.ignoredWrite else s.setByte i b

/-- `RD8 i` (20_memory.md R73): the byte, at any time. -/
def rd8 (i : Nat) (s : State) : State := s.answer (.byte (s.byte i))

/-- A REG access outside the interface stops by name (20_memory.md R72, U3, log 9). -/
def onRegister (off : Nat) (o : Outcome) : Outcome :=
  if regLast < off then .fault (.noSuchRegister off)
  else if off % 4 ≠ 0 then .refused (.misalignedRegister off)
  else o

/-- A PBUF access outside the buffer stops by name (20_memory.md R73, U3, log 9). -/
def onBuffer (i : Nat) (s : State) (o : Outcome) : Outcome :=
  if i < s.pbufSize then o else .fault (.noSuchBufferByte i)

/-- One poll of `WAIT` (30_encoding.md R131): `RD32 STATUS`, again at the next step unless `DONE` is set (log 13). -/
def waitPoll (rest : List HostAction) (s : State) : State :=
  State.taken (if s.status.done then rest else .wait :: rest) (s.answer (.reg (statusWord s)))

/-- The first transaction of `PUTCSUM i` (30_encoding.md R131), `RD32 CSUM_RES -> c`; what is left of it is `WR8 i, c[15:8]` and
`WR8 i+1, c[7:0]` (20_memory.md R75; log 13). -/
def putCsumRead (i : Nat) (rest : List HostAction) (s : State) : State :=
  rd32 0x18 (s.taken
    (.wr8 i ((readValue 0x18 s).extractLsb' 8 8) :: .wr8 (i + 1) ((readValue 0x18 s).extractLsb' 0 8) :: rest))

/-- One action of the host or the platform, taken from the front of the script. -/
def hostTurn (a : HostAction) (rest : List HostAction) (s : State) : Outcome :=
  match a with
  | .wr32 off v => onRegister off (wr32 off v (s.taken rest))
  | .rd32 off => onRegister off (.next (rd32 off (s.taken rest)))
  | .wr8 i b => onBuffer i s (.next (wr8 i b (s.taken rest)))
  | .rd8 i => onBuffer i s (.next (rd8 i (s.taken rest)))
  | .wait => .next (waitPoll rest s)
  | .putCsum i => .next (putCsumRead i rest s)
  | .reset powerOn => .next ((s.taken rest).resetEvent powerOn)

/-- A register with its bits 31:16 replaced. -/
def withUpperHalf (k : Half) (w : Word) : Word := (k ++ lowerHalf w).setWidth 32

/-- Which agent moves next. -/
inductive Turn where
  | nobody
  | host (a : HostAction) (rest : List HostAction)
  | engine (w : TableWord)
  deriving DecidableEq, Repr

/-- The engine has a step exactly while a command is pending (45_control_commands.md R262); it takes it when the schedule lets
no further host action come first, or the host has none (R263, log 4). Inside a completion step the engine alone moves
(20_memory.md R83). The word is what the engine decodes: the pending command word (30_encoding.md R102), or type and code of the
message (R121). -/
def turn (s : State) : Turn :=
  match s.engine with
  | .dispatching => .engine (.icmpKey (upperHalf s.ic.w0))
  | .idle =>
    match s.host.script with
    | [] => .nobody
    | a :: rest => .host a rest
  | .holding v =>
    match s.host.script with
    | [] => .engine (.command v)
    | a :: rest => if s.host.delay = 0 then .engine (.command v) else .host a rest

end Sys2Proof.Machine
end

