-- ==== Sys2Proof/Machine/Step.lean ====
section
/-! DEFINITION. One step of the machine: one action of the host, or one completion step of the engine, or nothing when neither
agent has a step (45_control_commands.md R262). -/

namespace Sys2Proof.Machine

/-- One step. A reserved command word completes with `E_BAD_CMD` (45_control_commands.md R267). When nobody has a step the
machine stays as it is (log 14). -/
def step (s : State) : Host.Outcome State Fault Refusal :=
  match turn s with
  | .nobody => .next s
  | .host a rest => hostTurn a rest s
  | .engine w =>
    match decode w with
    | .ok i => exec i s
    | .error _ => .next s.completeReserved

/-- The state with an instruction placed where the next step takes it from: a command word as the pending command, due now; the
zero word, which is never pending, as the host's next write to `CMD`; an ICMP key as type and code of the message being
classified (log 5, log 6). -/
def State.withFetchWord (s : State) (nbits w : Nat) : State :=
  match tableWordOf nbits w with
  | .command v =>
    if v = 0 then { s with engine := .idle, host := { s.host with script := .wr32 0 v :: s.host.script } }
    else { s with engine := .holding v, host := { s.host with delay := 0 } }
  | .icmpKey k => { s with engine := .dispatching, ic := { s.ic with w0 := withUpperHalf k s.ic.w0 } }

end Sys2Proof.Machine
end

