-- ==== Sys2Proof/Safety.lean ====
section
/-! DEFINITION. What a good state of the machine is (the invariant that every step keeps), which host actions the interface
has, and the mathematical sums that statements about the checksum compare it with. -/

namespace Sys2Proof.Machine

/-- `PBUF` and the registers that bound it: `PBUF_SIZE` in its legal range (00_scope.md R12), `PKT_LEN` clamped to it
(10_state.md R24), and the buffer's list in canonical form. -/
def BufferInv (s : State) : Prop :=
  Config.pbufSizeMin ≤ s.pbufSize ∧ s.pbufSize ≤ Config.pbufSizeMax ∧ s.pktLen.toNat ≤ s.pbufSize ∧ Memory.wf s.pbufSize s.pbuf

/-- Between two steps the engine is idle or holds a command other than `NOP`, and then `STATUS[15:0]` shows `BUSY` and nothing
else (45_control_commands.md R261, R264, R265; 20_memory.md R84 (c)). -/
def EngineInv (s : State) : Prop :=
  match s.engine with
  | .idle => (s.status.done = true ↔ s.status.outcome ≠ .none)
  | .holding v => v ≠ 0 ∧ s.status = s.status.cleared
  | .dispatching => False

/-- `ERR != 0` iff `OUTCOME = ERROR` (60_exceptions.md R283); no warning but `W_LEN_MISMATCH` accompanies an error (R282); only an
echo reply with another identifier is foreign, and its payload range is 0 (43_icmp_classify.md R211). -/
def StatusInv (s : State) : Prop :=
  (s.status.err ≠ none ↔ s.status.outcome = .error)
  ∧ (s.status.outcome = .error → s.status.wUnkType = false ∧ s.status.wUnkCode = false ∧ s.status.wEmbBad = false
      ∧ s.status.wFieldTrunc = false)
  ∧ (s.status.outcome = .foreign → s.ic.cls = .echoReply ∧ s.ic.ident ≠ pairId ∧ s.ic.payOff = 0 ∧ s.ic.payLen = 0)

/-- `IP_HLEN` is the IHL of `IP_W0` times 4, `IP_OPTLEN` what it exceeds 20 by, `IP_EFFLEN` no more than the declared total length
or the buffer (10_state.md R35 to R37). -/
def IpInv (s : State) : Prop :=
  s.ip.hlen.toNat = (s.ip.w0.extractLsb' 24 4).toNat * 4
  ∧ s.ip.optlen.toNat = s.ip.hlen.toNat - 20
  ∧ s.ip.efflen.toNat ≤ (s.ip.w0.extractLsb' 0 16).toNat
  ∧ s.ip.efflen.toNat ≤ s.pbufSize

/-- The IC group is all zero or describes a message of at least 8 bytes inside the buffer, with the class of its type and
`CODE_KNOWN` of its type and code; its payload range is 0 or what follows the header (10_state.md R38 to R42, R51, R52). -/
def IcInv (s : State) : Prop :=
  (s.ic.cls = .noMessage → s.ic = {})
  ∧ (s.ic.cls ≠ .noMessage →
      8 ≤ s.ic.len.toNat ∧ s.ic.off.toNat + s.ic.len.toNat ≤ s.pbufSize
      ∧ s.ic.cls = classOf (s.ic.w0.extractLsb' 24 8)
      ∧ s.ic.codeKnown = codeKnown (s.ic.w0.extractLsb' 24 8) (s.ic.w0.extractLsb' 16 8))
  ∧ (s.ic.payOff = 0 ∧ s.ic.payLen = 0
      ∨ s.ic.payOff.toNat = s.ic.off.toNat + 8 ∧ s.ic.payLen.toNat = s.ic.len.toNat - 8)

/-- The EM group is all zero or describes an embedded header inside the message of an error-reporting class; the ports are valid
only with it, for TCP or UDP, and 0 otherwise (10_state.md R53 to R60, 30_encoding.md R127). -/
def EmInv (s : State) : Prop :=
  (s.em.embValid = false → s.em = {})
  ∧ (s.em.embValid = true →
      errorReporting s.ic.cls = true ∧ s.em.off.toNat = s.ic.off.toNat + 8
      ∧ 20 ≤ s.em.hlen.toNat ∧ s.em.hlen.toNat % 4 = 0
      ∧ s.em.off.toNat + 20 ≤ s.ic.off.toNat + s.ic.len.toNat)
  ∧ (s.em.portsValid = true →
      (s.em.proto = 6 ∨ s.em.proto = 17) ∧ s.em.off.toNat + s.em.hlen.toNat + 4 ≤ s.ic.off.toNat + s.ic.len.toNat)
  ∧ (s.em.portsValid = false → s.em.sport = 0 ∧ s.em.dport = 0)

/-- A good state: what holds after reset and after every step. -/
def GoodState (s : State) : Prop :=
  BufferInv s ∧ EngineInv s ∧ StatusInv s ∧ IpInv s ∧ IcInv s ∧ EmInv s

/-- The host actions whose own transaction the interface has (20_memory.md R72, R73): REG offsets that are multiples of 4 up to
0xFFC, indices below `PBUF_SIZE`. `PUTCSUM`'s own transaction is its read of `CSUM_RES`; its two byte writes follow as actions of
their own (30_encoding.md R131). -/
def LegalAction (size : Nat) (a : HostAction) : Prop :=
  match a with
  | .wr32 off _ => off ≤ 0xFFC ∧ off % 4 = 0
  | .rd32 off => off ≤ 0xFFC ∧ off % 4 = 0
  | .wr8 i _ => i < size
  | .rd8 i => i < size
  | .wait => True
  | .putCsum _ => True
  | .reset _ => True

/-- What `RD32` gives at every offset from 0x00 to 0x9C when the value is specified (10_state.md R21, 20_memory.md R72): the
register's field of State, zero-extended; `toNat` says that the bits above a narrower field are 0. The layouts of `STATUS`,
`IC_CLASS` and `EM_FLAGS` inside their words are those of R23, R42 and R53. -/
def ReadsAsMapped (s : State) : Prop :=
  regRead 0x00 s = 0 ∧ regRead 0x04 s = statusWord s ∧ (regRead 0x08 s).toNat = s.pktLen.toNat
  ∧ (regRead 0x0C s).toNat = s.argOff.toNat ∧ (regRead 0x10 s).toNat = s.argLen.toNat ∧ regRead 0x14 s = 0x00004242
  ∧ (regRead 0x18 s).toNat = s.csumRes.toNat ∧ regRead 0x1C s = 0 ∧ regRead 0x20 s = s.ip.w0 ∧ regRead 0x24 s = s.ip.w1
  ∧ regRead 0x28 s = s.ip.w2 ∧ regRead 0x2C s = s.ip.src ∧ regRead 0x30 s = s.ip.dst
  ∧ (regRead 0x34 s).toNat = s.ip.hlen.toNat ∧ (regRead 0x38 s).toNat = s.ip.optlen.toNat
  ∧ (regRead 0x3C s).toNat = s.ip.efflen.toNat ∧ (regRead 0x40 s).toNat = s.ic.off.toNat
  ∧ (regRead 0x44 s).toNat = s.ic.len.toNat ∧ regRead 0x48 s = s.ic.w0 ∧ regRead 0x4C s = s.ic.w1
  ∧ regRead 0x50 s = icClassWord s.ic ∧ (regRead 0x54 s).toNat = s.ic.ident.toNat
  ∧ (regRead 0x58 s).toNat = s.ic.seq.toNat ∧ regRead 0x5C s = s.ic.gateway ∧ (regRead 0x60 s).toNat = s.ic.mtu.toNat
  ∧ (regRead 0x64 s).toNat = s.ic.pointer.toNat ∧ (regRead 0x68 s).toNat = s.ic.raCount.toNat
  ∧ (regRead 0x6C s).toNat = s.ic.raLifetime.toNat ∧ regRead 0x70 s = s.ic.mask
  ∧ (regRead 0x74 s).toNat = s.ic.payOff.toNat ∧ (regRead 0x78 s).toNat = s.ic.payLen.toNat ∧ regRead 0x7C s = 0
  ∧ regRead 0x80 s = emFlagsWord s.em ∧ (regRead 0x84 s).toNat = s.em.off.toNat ∧ (regRead 0x88 s).toNat = s.em.hlen.toNat
  ∧ (regRead 0x8C s).toNat = s.em.proto.toNat ∧ regRead 0x90 s = s.em.src ∧ regRead 0x94 s = s.em.dst
  ∧ (regRead 0x98 s).toNat = s.em.sport.toNat ∧ (regRead 0x9C s).toNat = s.em.dport.toNat

/-- Two states whose commands have the same inputs: `PKT_LEN`, `ARG_OFF`, `ARG_LEN`, and the bytes of `PBUF` below `PKT_LEN`
(10_state.md R65). -/
def SameInputs (s t : State) : Prop :=
  s.pktLen = t.pktLen ∧ s.argOff = t.argOff ∧ s.argLen = t.argLen ∧ ∀ i, i < s.pktLen.toNat → s.byte i = t.byte i

/-- The sum of the big-endian 16-bit words of a byte sequence as a natural number, an odd last byte taken as a high byte
(40_checksum.md R150, R151). -/
def wordSum : List Byte → Nat
  | [] => 0
  | [last] => last.toNat * 256
  | hi :: lo :: rest => hi.toNat * 256 + lo.toNat + wordSum rest

/-- The sum of a byte sequence's words after both folds, as a natural number (40_checksum.md R150). -/
def foldedSum (n : Nat) : Nat :=
  let once := n % 65536 + n / 65536
  once % 65536 + once / 65536

/-- The IP group holds the header at index 0 (10_state.md R30 to R37; 42_ipv4_parse.md R182): each register as a number made of
the bytes of `PBUF`. -/
def HoldsHeader (s : State) (g : IpGroup) : Prop :=
  g.w0.toNat = (s.byte 0).toNat * 2 ^ 24 + (s.byte 1).toNat * 2 ^ 16 + (s.byte 2).toNat * 2 ^ 8 + (s.byte 3).toNat
  ∧ g.w1.toNat = (s.byte 4).toNat * 2 ^ 24 + (s.byte 5).toNat * 2 ^ 16 + (s.byte 6).toNat * 2 ^ 8 + (s.byte 7).toNat
  ∧ g.w2.toNat = (s.byte 8).toNat * 2 ^ 24 + (s.byte 9).toNat * 2 ^ 16 + (s.byte 10).toNat * 2 ^ 8 + (s.byte 11).toNat
  ∧ g.src.toNat = (s.byte 12).toNat * 2 ^ 24 + (s.byte 13).toNat * 2 ^ 16 + (s.byte 14).toNat * 2 ^ 8 + (s.byte 15).toNat
  ∧ g.dst.toNat = (s.byte 16).toNat * 2 ^ 24 + (s.byte 17).toNat * 2 ^ 16 + (s.byte 18).toNat * 2 ^ 8 + (s.byte 19).toNat
  ∧ g.hlen.toNat = (s.byte 0).toNat % 16 * 4
  ∧ g.optlen.toNat = (s.byte 0).toNat % 16 * 4 - 20
  ∧ g.efflen.toNat = min ((s.byte 2).toNat * 256 + (s.byte 3).toNat) s.pktLen.toNat

/-- The declared total length of the header at index 0 (30_encoding.md R110). -/
def declaredLength (s : State) : Nat := (s.byte 2).toNat * 256 + (s.byte 3).toNat

/-- The header at index 0 passes the tests of `ip_parse` (42_ipv4_parse.md R181, R184, R185). -/
def GoodHeader (s : State) : Prop :=
  20 ≤ s.pktLen.toNat ∧ (s.byte 0).toNat / 16 = 4 ∧ 5 ≤ (s.byte 0).toNat % 16

/-- The state at the point of `icmp_parse(off, off + len)` where the class rule is selected, with the common header written and
every other register of the IC and EM groups 0 (43_icmp_classify.md R202 to R204). -/
def atDispatch (off len : Nat) (s : State) : State :=
  { s with
    engine := .dispatching
    ic := { off := BitVec.ofNat 16 off, len := BitVec.ofNat 16 len, w0 := s.be32 off, w1 := s.be32 (off + 4) }
    em := {} }

/-- The end of a row of an error-reporting class: its own fields and `IC_CLASS` as in `g`, the embedded datagram parsed, the
command ended `OK` (43_icmp_classify.md R227). -/
def errorReportEnd (g : IcGroup) (unkCode : Bool) (s : State) : State :=
  State.finish .ok
    (embParse (s.ic.off.toNat + 8) (s.ic.off.toNat + s.ic.len.toNat)
      { s with ic := g, status := { s.status with wUnkCode := unkCode || s.status.wUnkCode } })

/-- The end of a row of any other class: its own fields and `IC_CLASS` as in `g`, and the outcome. -/
def plainEnd (g : IcGroup) (o : CmdOutcome) (s : State) : State :=
  { s with ic := g, status := { s.status with done := true, outcome := o, err := none }, engine := .idle }

/-- Two states have the same `STATUS[15:0]` less `BUSY`. -/
def SameLowStatus (s t : State) : Prop := { s.status with sBusyWr := false } = { t.status with sBusyWr := false }

/-- Everything outside `STATUS`, `CSUM_RES`, the three result groups and the engine is as before: the operand registers, every
byte of `PBUF`, and the host (10_state.md R66, 20_memory.md R79). -/
def InputsKept (s t : State) : Prop :=
  t.pktLen = s.pktLen ∧ t.argOff = s.argOff ∧ t.argLen = s.argLen ∧ t.pbufSize = s.pbufSize ∧ t.pbuf = s.pbuf
  ∧ t.powerCycles = s.powerCycles ∧ t.host = s.host ∧ ∀ a, t.byte a = s.byte a

end Sys2Proof.Machine
end

