-- ==== Sys2Proof/Certificates/Slice0/Obligations.lean ====
section
/-! DEFINITION. The statements about the machine that the provers settle. They speak of the machine, never of a program. -/

open Sys2Proof Sys2Proof.Machine

/-- For every well-formed instruction, with every operand its encoding admits, decode of encode is that instruction. (R102, R103, R120, R121, R122, R123, R124) -/
def Obligations.DecodeEncodeRoundTrip : Prop :=
  ∀ i : Instr, i.WellFormed = true → decode (encode i) = .ok i

/-- If a command word or an ICMP key decodes to an instruction, the instruction is well-formed and its encoding is that word: no two words decode to one instruction and no bit is dropped. (R102, R103, R121, R126) -/
def Obligations.EncodeDecodeRoundTrip : Prop :=
  ∀ (w : TableWord) (i : Instr), decode w = .ok i → i.WellFormed = true ∧ encode i = w

/-- The six command words, the pairs (3,1), (5,0), (11,0) and (3,9), an echo reply and an unknown type, written out bit by bit, decode to the rows of the table. (R103, R120, R121, R122, R123, R124) -/
def Obligations.SpelledOutWordsDecode : Prop :=
  decodeTableWord 32 0x00000000 = some .nop ∧ decodeTableWord 32 0x00000001 = some .csum
  ∧ decodeTableWord 32 0x00000002 = some .parseIp ∧ decodeTableWord 32 0x00000003 = some .parseIcmp
  ∧ decodeTableWord 32 0x00000004 = some .classify ∧ decodeTableWord 32 0x00000005 = some .clear
  ∧ decodeTableWord 16 0b0000001100000001 = some .icmpDestUnreachHost
  ∧ decodeTableWord 16 0b0000010100000000 = some .icmpRedirectNetwork
  ∧ decodeTableWord 16 0b0000101100000000 = some .icmpTimeExceededInTransit
  ∧ decodeTableWord 16 0b0000001100001001 = some (.icmpDestinationUnreachable 9)
  ∧ decodeTableWord 16 0b0000000000000101 = some (.icmpEchoReply 5)
  ∧ decodeTableWord 16 0b1111111100000111 = some (.icmpUnknown 255 7)

/-- A command word is refused if and only if its bits 31:8 are not all zero or its low byte is 0x06 or more; every ICMP key decodes. (R102, R103, R105, R126) -/
def Obligations.OnlyReservedCommandWordsAreRefused : Prop :=
  (∀ v : Word, (∃ r, decode (.command v) = .error r) ↔ (v.extractLsb' 8 24 ≠ 0 ∨ 6 ≤ (v.extractLsb' 0 8).toNat))
  ∧ ∀ k : Half, ∃ i, decode (.icmpKey k) = .ok i

/-- For every type and code, the row the decoder selects by the order of R121 has the meaning that class_of(type) and code_known(type, code) select in icmp_parse. The extent of the code tables is the spec's default (log 7). (R120, R121, R204, R205) -/
def Obligations.RowsAgreeWithClassAndCodeTables : Prop :=
  ∀ (type code : Byte) (s : State), ∃ i, decode (.icmpKey (icmpKeyOf type code)) = .ok i
    ∧ exec i s = .next (runClass (classOf type) code (codeKnown type code) s)

/-- For every type and code the selected row answers a next state with the class number of table R120, CODE_KNOWN = 0 exactly for types 3, 5, 11 with a code above 5, 3, 1, W_UNK_TYPE set for class 16 and W_UNK_CODE set when CODE_KNOWN is 0. The extent of the code tables is the spec's default (log 7). (R120, R122, R123, R124, R125, R126, R205, R206) -/
def Obligations.ClassificationTable : Prop :=
  ∀ (type code : Byte) (s : State), ∃ i t, decode (.icmpKey (icmpKeyOf type code)) = .ok i ∧ exec i s = .next t
    ∧ (classNumber t.ic.cls).toNat
        = (([(0, 1), (8, 2), (3, 3), (4, 4), (5, 5), (9, 6), (10, 7), (11, 8), (12, 9), (13, 10), (14, 11), (15, 12), (16, 13),
            (17, 14), (18, 15)] : List (Nat × Nat)).lookup type.toNat).getD 16
    ∧ (t.ic.codeKnown = false ↔
        (type = 3 ∧ 5 < code.toNat) ∨ (type = 5 ∧ 3 < code.toNat) ∨ (type = 11 ∧ 1 < code.toNat))
    ∧ t.status.wUnkType = (decide (classNumber t.ic.cls = 16) || s.status.wUnkType)
    ∧ t.status.wUnkCode = (!t.ic.codeKnown || s.status.wUnkCode)

/-- For at most 65535 bytes, the checksum as a number is 0xFFFF minus the sum of the big-endian 16-bit words, an odd last byte taken as a high byte, after two folds of the carries. (R150) -/
def Obligations.ChecksumIsComplementOfFoldedSum : Prop :=
  ∀ bytes : List Byte, bytes.length ≤ 65535 → (checksum bytes).toNat = 0xFFFF - foldedSum (wordSum bytes)

/-- For at most 65535 bytes the accumulator before the folds is the sum of the words as a natural number, which is at most 0x7FFF8000. (R153) -/
def Obligations.AccumulatorNeverWraps : Prop :=
  ∀ bytes : List Byte, bytes.length ≤ 65535 → (addWords 0 bytes).toNat = wordSum bytes ∧ wordSum bytes ≤ 0x7FFF8000

/-- After an even number of bytes a last byte adds 256 times its value to the accumulator, and the checksum is that of the same bytes followed by a zero byte. (R151) -/
def Obligations.OddLastByteIsAHighByte : Prop :=
  ∀ (bytes : List Byte) (last : Byte), bytes.length % 2 = 0 →
    addWords 0 (bytes ++ [last]) = addWords 0 bytes + BitVec.ofNat 32 (last.toNat * 256)
    ∧ checksum (bytes ++ [last]) = checksum (bytes ++ [last, 0])

/-- For every 32-bit accumulator the first fold gives at most 0x1FFFE, the second at most 0xFFFF, and the second changes nothing when the first leaves no carry. (R152) -/
def Obligations.TwoFoldsSuffice : Prop :=
  ∀ acc : Word, (foldCarries acc).toNat ≤ 0x1FFFE ∧ (foldCarries (foldCarries acc)).toNat ≤ 0xFFFF
    ∧ ((foldCarries acc).toNat ≤ 0xFFFF → foldCarries (foldCarries acc) = foldCarries acc)

/-- The checksum of no bytes and of all-zero bytes is 0xFFFF; for at most 65535 bytes the result is 0 exactly when the folded sum is 0xFFFF, and the folded sum is 0 exactly when every byte is 0. (R154) -/
def Obligations.ChecksumCornerValues : Prop :=
  checksum [] = 0xFFFF
  ∧ (∀ bytes : List Byte, (∀ b ∈ bytes, b = 0) → checksum bytes = 0xFFFF)
  ∧ ∀ bytes : List Byte, bytes.length ≤ 65535 →
      (checksum bytes = 0 ↔ foldCarries (foldCarries (addWords 0 bytes)) = 0xFFFF)
      ∧ (foldCarries (foldCarries (addWords 0 bytes)) = 0 ↔ ∀ b ∈ bytes, b = 0)

/-- For a range of at most 65535 bytes with a 16-bit field at an even distance from its start: if the field holds, big-endian, the checksum of the range with the field zero, then the checksum of the range is 0x0000. (R156) -/
def Obligations.StoredChecksumVerifiesToZero : Prop :=
  ∀ before after : List Byte, before.length % 2 = 0 → before.length + 2 + after.length ≤ 65535 →
    checksum (before ++ [(checksum (before ++ [0, 0] ++ after)).extractLsb' 8 8,
        (checksum (before ++ [0, 0] ++ after)).extractLsb' 0 8] ++ after) = 0

/-- CSUM with ARG_OFF + ARG_LEN at most PKT_LEN writes to CSUM_RES the checksum of the bytes of the range and ends OK; otherwise it writes 0 and ends with ERROR and E_RANGE. Nothing else changes but STATUS[15:0] and the engine. (R104, R155, R292) -/
def Obligations.CsumStoresChecksumOrRaisesRange : Prop :=
  ∀ s : State,
    (s.argOff.toNat + s.argLen.toNat ≤ s.pktLen.toNat →
      exec .csum s = .next { s with
        csumRes := checksum ((List.range' s.argOff.toNat s.argLen.toNat).map s.byte)
        status := { done := true, outcome := .ok, sBusyWr := s.status.sBusyWr }, engine := .idle })
    ∧ (s.pktLen.toNat < s.argOff.toNat + s.argLen.toNat →
      exec .csum s = .next { s with
        csumRes := 0
        status := { done := true, outcome := .error, err := some .range, sBusyWr := s.status.sBusyWr }, engine := .idle })

/-- With ARG_LEN = 0 and ARG_OFF at most PKT_LEN, CSUM answers a next state with CSUM_RES = 0xFFFF and STATUS[15:0] = 0x0006, for every content of PBUF, also with PKT_LEN = 0. (R155) -/
def Obligations.CsumOfEmptyRangeIsAllOnes : Prop :=
  ∀ s : State, s.argLen = 0 → s.argOff.toNat ≤ s.pktLen.toNat →
    ∃ t, exec .csum s = .next t ∧ t.csumRes = 0xFFFF ∧ (statusWord t).toNat % 65536 = 0x0006 ∧ InputsKept s t

/-- With at least 20 bytes, version 4 and IHL at least 5, PARSE_IP ends OK with the eight IP registers made of the bytes of the header, W_LEN_MISMATCH set exactly when the declared length is not PKT_LEN, no other warning, and nothing else changed. (R182, R186, R191) -/
def Obligations.ParseIpReportsGoodHeader : Prop :=
  ∀ s : State, GoodHeader s → ∃ g, HoldsHeader s g
    ∧ exec .parseIp s = .next { s with
        ip := g
        status := { done := true, outcome := .ok, wLenMismatch := decide (declaredLength s ≠ s.pktLen.toNat),
                    sBusyWr := s.status.sBusyWr }
        engine := .idle }

/-- Below 20 bytes PARSE_IP raises E_TOO_SHORT with the IP group zero; with 20 bytes and a version other than 4, E_BAD_VERSION, and with version 4 and IHL below 5, E_BAD_IHL, both with the refused header in the IP group; no warning; nothing else changed. (R181, R184, R185, R189, R191, R287, R288, R289) -/
def Obligations.ParseIpRefusesInOrder : Prop :=
  ∀ s : State,
    (s.pktLen.toNat < 20 → exec .parseIp s = .next { s with
      ip := {}, status := { done := true, outcome := .error, err := some .tooShort, sBusyWr := s.status.sBusyWr }
      engine := .idle })
    ∧ (20 ≤ s.pktLen.toNat → (s.byte 0).toNat / 16 ≠ 4 → ∃ g, HoldsHeader s g ∧ exec .parseIp s = .next { s with
      ip := g, status := { done := true, outcome := .error, err := some .badVersion, sBusyWr := s.status.sBusyWr }
      engine := .idle })
    ∧ (20 ≤ s.pktLen.toNat → (s.byte 0).toNat / 16 = 4 → (s.byte 0).toNat % 16 < 5 →
      ∃ g, HoldsHeader s g ∧ exec .parseIp s = .next { s with
        ip := g, status := { done := true, outcome := .error, err := some .badIhl, sBusyWr := s.status.sBusyWr }
        engine := .idle })

/-- A range beyond PKT_LEN raises E_RANGE, a legal range of fewer than 8 bytes E_ICMP_SHORT; both leave the IC and EM groups zero and change nothing else but STATUS[15:0] and the engine. (R201, R230, R291, R292) -/
def Obligations.ParseIcmpRefusesInOrder : Prop :=
  ∀ s : State,
    (s.pktLen.toNat < s.argOff.toNat + s.argLen.toNat → exec .parseIcmp s = .next { s with
      ic := {}, em := {}, status := { done := true, outcome := .error, err := some .range, sBusyWr := s.status.sBusyWr }
      engine := .idle })
    ∧ (s.argOff.toNat + s.argLen.toNat ≤ s.pktLen.toNat → s.argLen.toNat < 8 → exec .parseIcmp s = .next { s with
      ic := {}, em := {}, status := { done := true, outcome := .error, err := some .icmpShort, sBusyWr := s.status.sBusyWr }
      engine := .idle })

/-- For a legal range of at least 8 bytes, PARSE_ICMP answers the next state that the row selected by the first two bytes of the range gives from the state with the common header written, the other IC and EM registers zero and STATUS[15:0] as accepted. (R104, R202, R203, R204, R230) -/
def Obligations.ParseIcmpRunsTheSelectedRow : Prop :=
  ∀ s : State, s.argOff.toNat + s.argLen.toNat ≤ s.pktLen.toNat → 8 ≤ s.argLen.toNat →
    ∃ i t, decode (.icmpKey (icmpKeyOf (s.byte s.argOff.toNat) (s.byte (s.argOff.toNat + 1)))) = .ok i
      ∧ exec .parseIcmp s = .next t
      ∧ exec i (atDispatch s.argOff.toNat s.argLen.toNat { s with status := { sBusyWr := s.status.sBusyWr } }) = .next t

/-- CLASSIFY raises E_TOO_SHORT, E_BAD_VERSION, E_BAD_IHL, E_NOT_ICMP, E_ICMP_SHORT, the first whose test fails; the IC and EM groups are zero; the IP group holds the header from 20 bytes on; W_LEN_MISMATCH accompanies only the last two, when the lengths disagree; nothing else changes. (R184, R185, R187, R192, R193, R201, R231, R284) -/
def Obligations.ClassifyRefusesInOrder : Prop :=
  ∀ s : State,
    (s.pktLen.toNat < 20 → exec .classify s = .next { s with
      ip := {}, ic := {}, em := {}, engine := .idle
      status := { done := true, outcome := .error, err := some .tooShort, sBusyWr := s.status.sBusyWr } })
    ∧ (20 ≤ s.pktLen.toNat → ∃ g, HoldsHeader s g
      ∧ ((s.byte 0).toNat / 16 ≠ 4 → exec .classify s = .next { s with
          ip := g, ic := {}, em := {}, engine := .idle
          status := { done := true, outcome := .error, err := some .badVersion, sBusyWr := s.status.sBusyWr } })
      ∧ ((s.byte 0).toNat / 16 = 4 → (s.byte 0).toNat % 16 < 5 → exec .classify s = .next { s with
          ip := g, ic := {}, em := {}, engine := .idle
          status := { done := true, outcome := .error, err := some .badIhl, sBusyWr := s.status.sBusyWr } })
      ∧ (GoodHeader s → s.byte 9 ≠ 1 → exec .classify s = .next { s with
          ip := g, ic := {}, em := {}, engine := .idle
          status := { done := true, outcome := .error, err := some .notIcmp,
                      wLenMismatch := decide (declaredLength s ≠ s.pktLen.toNat), sBusyWr := s.status.sBusyWr } })
      ∧ (GoodHeader s → s.byte 9 = 1 →
          (min (declaredLength s) s.pktLen.toNat : Int) - ((s.byte 0).toNat % 16 * 4 : Nat) < 8 →
          exec .classify s = .next { s with
            ip := g, ic := {}, em := {}, engine := .idle
            status := { done := true, outcome := .error, err := some .icmpShort,
                        wLenMismatch := decide (declaredLength s ≠ s.pktLen.toNat), sBusyWr := s.status.sBusyWr } }))

/-- For a good header, protocol 1 and at least 8 bytes behind the header within the smaller of the declared and the received length, CLASSIFY answers the next state that the row selected by the first two bytes behind the header gives from the state with the IP group and the common header written, the other IC and EM registers zero, STATUS[15:0] as accepted but for W_LEN_MISMATCH. (R112, R183, R186, R202, R204, R231) -/
def Obligations.ClassifyRunsTheSelectedRow : Prop :=
  ∀ s : State, GoodHeader s → s.byte 9 = 1 →
    (s.byte 0).toNat % 16 * 4 + 8 ≤ min (declaredLength s) s.pktLen.toNat →
    ∃ g i t, HoldsHeader s g
      ∧ decode (.icmpKey (icmpKeyOf (s.byte ((s.byte 0).toNat % 16 * 4)) (s.byte ((s.byte 0).toNat % 16 * 4 + 1)))) = .ok i
      ∧ exec .classify s = .next t
      ∧ exec i (atDispatch ((s.byte 0).toNat % 16 * 4) (min (declaredLength s) s.pktLen.toNat - (s.byte 0).toNat % 16 * 4)
          { s with ip := g, status := { wLenMismatch := decide (declaredLength s ≠ s.pktLen.toNat),
                                        sBusyWr := s.status.sBusyWr } }) = .next t

/-- From every state CLASSIFY answers a next state with the engine idle and DONE set, and exactly one of: ERROR with one of the five error codes and no message; FOREIGN with class EchoReply; OK with one of the sixteen classes. (R203, R231, R232, R233) -/
def Obligations.ClassifyIsTotal : Prop :=
  ∀ s : State, ∃ t, exec .classify s = .next t ∧ t.engine = .idle ∧ t.status.done = true
    ∧ ((t.status.outcome = .error ∧ t.ic.cls = .noMessage
          ∧ t.status.err ∈ [some .tooShort, some .badVersion, some .badIhl, some .notIcmp, some .icmpShort])
      ∨ (t.status.outcome = .foreign ∧ t.status.err = none ∧ t.ic.cls = .echoReply)
      ∨ (t.status.outcome = .ok ∧ t.status.err = none ∧ t.ic.cls ≠ .noMessage))

/-- Type 0 with any code decodes to the row; it writes class 1, CODE_KNOWN, IC_ID and IC_SEQ; with identifier 0x4242 it writes the payload range after the header and ends OK, otherwise it leaves the payload range and ends FOREIGN; no EM; nothing else changes. (R211) -/
def Obligations.EchoReplyPairingCheck : Prop :=
  ∀ (code : Byte) (s : State), decode (.icmpKey (icmpKeyOf 0 code)) = .ok (.icmpEchoReply code)
    ∧ exec (.icmpEchoReply code) s =
        if s.ic.w1.extractLsb' 16 16 = 0x4242 then
          .next (plainEnd { s.ic with
            cls := .echoReply, codeKnown := true, ident := s.ic.w1.extractLsb' 16 16, seq := s.ic.w1.extractLsb' 0 16
            payOff := BitVec.ofNat 16 (s.ic.off.toNat + 8), payLen := BitVec.ofNat 16 (s.ic.len.toNat - 8) } .ok s)
        else
          .next (plainEnd { s.ic with
            cls := .echoReply, codeKnown := true, ident := s.ic.w1.extractLsb' 16 16, seq := s.ic.w1.extractLsb' 0 16 }
            .foreign s)

/-- Type 8 with any code decodes to the row; it writes class 2, CODE_KNOWN, IC_ID, IC_SEQ and the payload range and ends OK whatever the identifier; no EM; nothing else changes. (R212) -/
def Obligations.EchoRequestReportsPayload : Prop :=
  ∀ (code : Byte) (s : State), decode (.icmpKey (icmpKeyOf 8 code)) = .ok (.icmpEchoRequest code)
    ∧ exec (.icmpEchoRequest code) s = .next (plainEnd { s.ic with
        cls := .echoRequest, codeKnown := true, ident := s.ic.w1.extractLsb' 16 16, seq := s.ic.w1.extractLsb' 0 16
        payOff := BitVec.ofNat 16 (s.ic.off.toNat + 8), payLen := BitVec.ofNat 16 (s.ic.len.toNat - 8) } .ok s)

/-- The seven rows of type 3 write class 3; codes 0 to 5 are known, others give CODE_KNOWN = 0 and W_UNK_CODE; only NeedsFragment writes IC_MTU; each parses the embedded datagram and ends OK. The extent of the code table is the spec's default (log 7). (R122, R206, R213, R227) -/
def Obligations.DestinationUnreachableRows : Prop :=
  (∀ code : Byte, decode (.icmpKey (icmpKeyOf 3 code)) = .ok
    (if code = 0 then .icmpDestUnreachNetwork else if code = 1 then .icmpDestUnreachHost
     else if code = 2 then .icmpDestUnreachProtocol else if code = 3 then .icmpDestUnreachPort
     else if code = 4 then .icmpDestUnreachNeedsFragment else if code = 5 then .icmpDestUnreachSourceRouteFailed
     else .icmpDestinationUnreachable code))
  ∧ ∀ s : State,
    let known : IcGroup := { s.ic with cls := .destinationUnreachable, codeKnown := true }
    exec .icmpDestUnreachNetwork s = .next (errorReportEnd known false s)
    ∧ exec .icmpDestUnreachHost s = .next (errorReportEnd known false s)
    ∧ exec .icmpDestUnreachProtocol s = .next (errorReportEnd known false s)
    ∧ exec .icmpDestUnreachPort s = .next (errorReportEnd known false s)
    ∧ exec .icmpDestUnreachNeedsFragment s =
        .next (errorReportEnd { known with mtu := s.ic.w1.extractLsb' 0 16 } false s)
    ∧ exec .icmpDestUnreachSourceRouteFailed s = .next (errorReportEnd known false s)
    ∧ ∀ code : Byte, 5 < code.toNat → exec (.icmpDestinationUnreachable code) s =
        .next (errorReportEnd { known with codeKnown := false } true s)

/-- Type 4 with any code decodes to the row; it writes class 4 and CODE_KNOWN and no field of its own, parses the embedded datagram and ends OK. (R214, R227) -/
def Obligations.SourceQuenchRow : Prop :=
  ∀ (code : Byte) (s : State), decode (.icmpKey (icmpKeyOf 4 code)) = .ok (.icmpSourceQuench code)
    ∧ exec (.icmpSourceQuench code) s =
        .next (errorReportEnd { s.ic with cls := .sourceQuench, codeKnown := true } false s)

/-- The five rows of type 5 write class 5 and IC_GATEWAY = IC_W1; codes 0 to 3 are known, others give CODE_KNOWN = 0 and W_UNK_CODE; each parses the embedded datagram and ends OK. The extent of the code table is the spec's default (log 7). (R123, R206, R215, R227) -/
def Obligations.RedirectRows : Prop :=
  (∀ code : Byte, decode (.icmpKey (icmpKeyOf 5 code)) = .ok
    (if code = 0 then .icmpRedirectNetwork else if code = 1 then .icmpRedirectHost
     else if code = 2 then .icmpRedirectTosNetwork else if code = 3 then .icmpRedirectTosHost else .icmpRedirect code))
  ∧ ∀ s : State,
    let known : IcGroup := { s.ic with cls := .redirect, codeKnown := true, gateway := s.ic.w1 }
    exec .icmpRedirectNetwork s = .next (errorReportEnd known false s)
    ∧ exec .icmpRedirectHost s = .next (errorReportEnd known false s)
    ∧ exec .icmpRedirectTosNetwork s = .next (errorReportEnd known false s)
    ∧ exec .icmpRedirectTosHost s = .next (errorReportEnd known false s)
    ∧ ∀ code : Byte, 3 < code.toNat → exec (.icmpRedirect code) s =
        .next (errorReportEnd { known with codeKnown := false } true s)

/-- Type 9 with any code decodes to the row; it writes class 6, CODE_KNOWN, IC_RA_COUNT = IC_W1[31:24] and IC_RA_LIFETIME = IC_W1[15:0] and ends OK; no EM; nothing else changes. (R216) -/
def Obligations.RouterAdvertisementRow : Prop :=
  ∀ (code : Byte) (s : State), decode (.icmpKey (icmpKeyOf 9 code)) = .ok (.icmpRouterAdvertisement code)
    ∧ exec (.icmpRouterAdvertisement code) s = .next (plainEnd { s.ic with
        cls := .routerAdvertisement, codeKnown := true
        raCount := s.ic.w1.extractLsb' 24 8, raLifetime := s.ic.w1.extractLsb' 0 16 } .ok s)

/-- RouterSolicitation, Timestamp, TimestampReply, InfoRequest, InfoReply and AddressMaskRequest, types 10, 13, 14, 15, 16, 17 with any code, write their class and CODE_KNOWN = 1, no field of their own, no EM, and end OK; nothing else changes. (R125, R217, R220, R221, R222, R223, R224) -/
def Obligations.FieldlessClassRows : Prop :=
  ∀ (code : Byte) (s : State),
    (decode (.icmpKey (icmpKeyOf 10 code)) = .ok (.icmpRouterSolicitation code)
      ∧ exec (.icmpRouterSolicitation code) s =
          .next (plainEnd { s.ic with cls := .routerSolicitation, codeKnown := true } .ok s))
    ∧ (decode (.icmpKey (icmpKeyOf 13 code)) = .ok (.icmpTimestamp code)
      ∧ exec (.icmpTimestamp code) s = .next (plainEnd { s.ic with cls := .timestamp, codeKnown := true } .ok s))
    ∧ (decode (.icmpKey (icmpKeyOf 14 code)) = .ok (.icmpTimestampReply code)
      ∧ exec (.icmpTimestampReply code) s = .next (plainEnd { s.ic with cls := .timestampReply, codeKnown := true } .ok s))
    ∧ (decode (.icmpKey (icmpKeyOf 15 code)) = .ok (.icmpInfoRequest code)
      ∧ exec (.icmpInfoRequest code) s = .next (plainEnd { s.ic with cls := .infoRequest, codeKnown := true } .ok s))
    ∧ (decode (.icmpKey (icmpKeyOf 16 code)) = .ok (.icmpInfoReply code)
      ∧ exec (.icmpInfoReply code) s = .next (plainEnd { s.ic with cls := .infoReply, codeKnown := true } .ok s))
    ∧ (decode (.icmpKey (icmpKeyOf 17 code)) = .ok (.icmpAddressMaskRequest code)
      ∧ exec (.icmpAddressMaskRequest code) s =
          .next (plainEnd { s.ic with cls := .addressMaskRequest, codeKnown := true } .ok s))

/-- The three rows of type 11 write class 8 and no field of their own; codes 0 and 1 are known, others give CODE_KNOWN = 0 and W_UNK_CODE; each parses the embedded datagram and ends OK. The extent of the code table is the spec's default (log 7). (R124, R206, R218, R227) -/
def Obligations.TimeExceededRows : Prop :=
  (∀ code : Byte, decode (.icmpKey (icmpKeyOf 11 code)) = .ok
    (if code = 0 then .icmpTimeExceededInTransit else if code = 1 then .icmpTimeExceededReassembly
     else .icmpTimeExceeded code))
  ∧ ∀ s : State,
    let known : IcGroup := { s.ic with cls := .timeExceeded, codeKnown := true }
    exec .icmpTimeExceededInTransit s = .next (errorReportEnd known false s)
    ∧ exec .icmpTimeExceededReassembly s = .next (errorReportEnd known false s)
    ∧ ∀ code : Byte, 1 < code.toNat → exec (.icmpTimeExceeded code) s =
        .next (errorReportEnd { known with codeKnown := false } true s)

/-- Type 12 with any code decodes to the row; it writes class 9, CODE_KNOWN and IC_POINTER = IC_W1[31:24], parses the embedded datagram and ends OK. (R219, R227) -/
def Obligations.ParameterProblemRow : Prop :=
  ∀ (code : Byte) (s : State), decode (.icmpKey (icmpKeyOf 12 code)) = .ok (.icmpParameterProblem code)
    ∧ exec (.icmpParameterProblem code) s = .next (errorReportEnd
        { s.ic with cls := .parameterProblem, codeKnown := true, pointer := s.ic.w1.extractLsb' 24 8 } false s)

/-- Type 18 with any code decodes to the row; it writes class 15 and CODE_KNOWN; with at least 12 bytes it writes IC_MASK = be32(o + 8), with fewer it sets W_FIELD_TRUNC and leaves IC_MASK; it ends OK; no EM; nothing else changes. (R225) -/
def Obligations.AddressMaskReplyRow : Prop :=
  ∀ (code : Byte) (s : State), decode (.icmpKey (icmpKeyOf 18 code)) = .ok (.icmpAddressMaskReply code)
    ∧ (12 ≤ s.ic.len.toNat → exec (.icmpAddressMaskReply code) s = .next (plainEnd { s.ic with
        cls := .addressMaskReply, codeKnown := true, mask := s.be32 (s.ic.off.toNat + 8) } .ok s))
    ∧ (s.ic.len.toNat < 12 → exec (.icmpAddressMaskReply code) s = .next (plainEnd { s.ic with
        cls := .addressMaskReply, codeKnown := true } .ok { s with status := { s.status with wFieldTrunc := true } }))

/-- Every type that table R120 does not list decodes, with any code, to the row Unknown; it writes class 16 and CODE_KNOWN = 1, no field of its own, no EM, sets W_UNK_TYPE and ends OK; nothing else changes. (R126, R226) -/
def Obligations.UnknownTypeRow : Prop :=
  ∀ (type code : Byte) (s : State), type.toNat ∉ [0, 3, 4, 5, 8, 9, 10, 11, 12, 13, 14, 15, 16, 17, 18] →
    decode (.icmpKey (icmpKeyOf type code)) = .ok (.icmpUnknown type code)
    ∧ exec (.icmpUnknown type code) s = .next (plainEnd { s.ic with cls := .unknown, codeKnown := true } .ok
        { s with status := { s.status with wUnkType := true } })

/-- From a zero EM group, with e and lim below 65536: fewer than 20 bytes, or a first byte that is not version 4 with IHL at least 5, sets W_EMB_BAD and nothing else; otherwise the header fields are reported, and for protocol 6 or 17 the two ports if they lie below lim, else W_EMB_BAD. (R251, R252, R254, R256) -/
def Obligations.EmbeddedDatagramParse : Prop :=
  ∀ (e lim : Nat) (s : State), s.em = {} → lim ≤ 65535 →
    let bad : State := { s with status := { s.status with wEmbBad := true } }
    let ehlen := (s.byte e).toNat % 16 * 4
    let header : EmGroup := { embValid := true, off := BitVec.ofNat 16 e, hlen := BitVec.ofNat 6 ehlen, proto := s.byte (e + 9),
                              src := s.be32 (e + 12), dst := s.be32 (e + 16) }
    (lim < e + 20 → embParse e lim s = bad)
    ∧ (e + 20 ≤ lim → ¬((s.byte e).toNat / 16 = 4 ∧ 5 ≤ (s.byte e).toNat % 16) → embParse e lim s = bad)
    ∧ (e + 20 ≤ lim → (s.byte e).toNat / 16 = 4 ∧ 5 ≤ (s.byte e).toNat % 16 →
        (s.byte (e + 9) ≠ 6 ∧ s.byte (e + 9) ≠ 17 → embParse e lim s = { s with em := header })
        ∧ (s.byte (e + 9) = 6 ∨ s.byte (e + 9) = 17 → lim < e + ehlen + 4 → embParse e lim s = { bad with em := header })
        ∧ (s.byte (e + 9) = 6 ∨ s.byte (e + 9) = 17 → e + ehlen + 4 ≤ lim → embParse e lim s = { s with
            em := { header with portsValid := true, sport := s.be16 (e + ehlen), dport := s.be16 (e + ehlen + 2) } }))

/-- For every type that is not 3, 4, 5, 11 or 12 and every code, the selected row answers a next state with the EM group and W_EMB_BAD as they were. (R127, R227) -/
def Obligations.OtherClassesHaveNoEmbeddedDatagram : Prop :=
  ∀ (type code : Byte) (s : State), type.toNat ∉ [3, 4, 5, 11, 12] →
    ∃ i t, decode (.icmpKey (icmpKeyOf type code)) = .ok i ∧ exec i s = .next t
      ∧ t.em = s.em ∧ t.status.wEmbBad = s.status.wEmbBad

/-- Every ICMP key selects a row that answers a next state: the engine idle, DONE set, no error, OUTCOME OK or FOREIGN, the common header, W_LEN_MISMATCH and S_BUSY_WR as they were, and everything outside STATUS, the IC and EM groups and the engine unchanged, every byte of PBUF included. (R203, R204, R262) -/
def Obligations.EveryRowEndsItsCommand : Prop :=
  ∀ (k : Half) (s : State), ∃ i t, decode (.icmpKey k) = .ok i ∧ exec i s = .next t
    ∧ t.engine = .idle ∧ t.status.done = true ∧ t.status.err = none ∧ (t.status.outcome = .ok ∨ t.status.outcome = .foreign)
    ∧ t.status.wLenMismatch = s.status.wLenMismatch ∧ t.status.sBusyWr = s.status.sBusyWr
    ∧ t.ic.off = s.ic.off ∧ t.ic.len = s.ic.len ∧ t.ic.w0 = s.ic.w0 ∧ t.ic.w1 = s.ic.w1
    ∧ t.csumRes = s.csumRes ∧ t.ip = s.ip ∧ InputsKept s t

/-- exec of NOP leaves the state; a write of the zero word to CMD while the engine is idle runs it and leaves every register, flag and byte, and the engine idle; while a command is pending the write only sets S_BUSY_WR. That the step of the write is exec of NOP is the model's reading (log 17); the host's record of its script (log 5) and the delay that lets a write come first (log 4) are the model's. (R265) -/
def Obligations.NopChangesNothing : Prop :=
  decode (.command 0) = .ok .nop
  ∧ (∀ s : State, exec .nop s = .next s)
  ∧ (∀ (s : State) (rest : List HostAction), s.engine = .idle → s.host.script = .wr32 0 0 :: rest →
      step s = exec .nop (s.taken rest) ∧ step s = .next { s with host := (s.taken rest).host })
  ∧ ∀ (s : State) (v : Word) (rest : List HostAction), s.engine = .holding v → s.host.script = .wr32 0 0 :: rest →
      s.host.delay ≠ 0 →
      step s = .next { s with status := { s.status with sBusyWr := true }, host := (s.taken rest).host }

/-- CLEAR answers the state with CSUM_RES and the IP, IC and EM groups zero, STATUS 0x00000006 and the engine idle; PKT_LEN, ARG_OFF, ARG_LEN and PBUF are kept. (R266) -/
def Obligations.ClearZeroesResultsAndStickyFlag : Prop :=
  decode (.command 5) = .ok .clear
  ∧ ∀ s : State, exec .clear s = .next { s with
      csumRes := 0, ip := {}, ic := {}, em := {}, status := { done := true, outcome := .ok }, engine := .idle }
    ∧ ∀ t, exec .clear s = .next t → statusWord t = 0x00000006

/-- A word with bits 31:8 not zero or a low byte of 6 or more matches no row; its write to CMD while the engine is idle is accepted; its completion step ends with ERROR and E_BAD_CMD, STATUS[15:0] = 0x007E; no result register, S_BUSY_WR, operand register or byte changes. The delay that acceptance takes from the schedule, and when the completion step is due, are the model's (log 4). (R105, R261, R267) -/
def Obligations.ReservedWordRaisesBadCmd : Prop :=
  ∀ (s : State) (v : Word), (v.extractLsb' 8 24 ≠ 0 ∨ 6 ≤ (v.extractLsb' 0 8).toNat) →
    (∃ r, decode (.command v) = .error r)
    ∧ (∀ rest, s.engine = .idle → s.host.script = .wr32 0 v :: rest → step s = .next ((s.taken rest).accept v))
    ∧ (s.engine = .holding v → (s.host.script = [] ∨ s.host.delay = 0) →
        step s = .next { s with
          status := { done := true, outcome := .error, err := some .badCmd, sBusyWr := s.status.sBusyWr }, engine := .idle }
        ∧ ∀ t, step s = .next t → (statusWord t).toNat % 65536 = 0x007E)

/-- A write of a word other than 0 to CMD while the engine is idle answers the state with STATUS[15:0] = 0x0001, S_BUSY_WR and every result register unchanged, and the engine holding the word. The delay taken from the schedule is the model's (log 4). (R22, R261) -/
def Obligations.AcceptanceClearsStatusAndHoldsTheWord : Prop :=
  ∀ (s : State) (v : Word) (rest : List HostAction), s.engine = .idle → s.host.script = .wr32 0 v :: rest → v ≠ 0 →
    step s = .next { s with
      status := { sBusyWr := s.status.sBusyWr }, engine := .holding v
      host := { s.host with script := rest, delay := s.host.schedule.headD 0, schedule := s.host.schedule.tail } }
    ∧ ∀ t, step s = .next t → (statusWord t).toNat % 65536 = 0x0001

/-- While the engine holds a command and the host moves first, a WR32 at any offset of the interface and a WR8 at any index below PBUF_SIZE set S_BUSY_WR and change no other register, byte or the pending word. (R72, R73, R321) -/
def Obligations.WritesWhileBusyOnlySetTheStickyFlag : Prop :=
  ∀ (s : State) (v : Word) (a : HostAction) (rest : List HostAction), s.engine = .holding v → s.host.script = a :: rest →
    s.host.delay ≠ 0 → LegalAction s.pbufSize a → ((∃ off x, a = .wr32 off x) ∨ ∃ i b, a = .wr8 i b) →
    step s = .next { s with status := { s.status with sBusyWr := true }, host := (s.taken rest).host }

/-- While the engine is idle, WR8 at an index below PBUF_SIZE answers a next state in which that index reads the byte, every other index reads as before, and every register is unchanged. (R73) -/
def Obligations.BufferWriteStoresOneByte : Prop :=
  ∀ (s : State) (i : Nat) (b : Byte) (rest : List HostAction), s.engine = .idle → s.host.script = .wr8 i b :: rest →
    i < s.pbufSize → ∃ t, step s = .next t ∧ (∀ j, t.byte j = if j = i then b else s.byte j)
      ∧ { t with pbuf := s.pbuf, host := s.host } = s

/-- While the engine is idle and PBUF_SIZE is at most 65535, WR32 at offset 8 stores the smaller of the low 16 bits and PBUF_SIZE in PKT_LEN, at 0x0C and 0x10 the low 16 bits in ARG_OFF and ARG_LEN, at every other offset but CMD it changes no register; nothing else changes. (R24, R25, R26, R29, R72) -/
def Obligations.OperandRegisterWrites : Prop :=
  ∀ (s : State) (off : Nat) (v : Word) (rest : List HostAction), s.engine = .idle → s.host.script = .wr32 off v :: rest →
    off ≤ 0xFFC → off % 4 = 0 → off ≠ 0 → s.pbufSize ≤ 65535 →
    ∃ t, step s = .next t
      ∧ t.pktLen.toNat = (if off = 8 then min (v.toNat % 65536) s.pbufSize else s.pktLen.toNat)
      ∧ t.argOff.toNat = (if off = 0x0C then v.toNat % 65536 else s.argOff.toNat)
      ∧ t.argLen.toNat = (if off = 0x10 then v.toNat % 65536 else s.argLen.toNat)
      ∧ { t with pktLen := s.pktLen, argOff := s.argOff, argLen := s.argLen, host := s.host } = s

/-- At every offset 0x00 to 0x9C the register map gives the zero-extended field of its register. When the host moves, an RD32 of the interface returns that value unless a command is pending and the offset is that of a result register, 0x18, 0x20 to 0x78 or 0x80 to 0x9C; then it returns the next free value, and only then the count of free reads advances. An RD8 below PBUF_SIZE returns the byte. A WAIT poll returns STATUS and is repeated unless DONE is set; PUTCSUM reads CSUM_RES and leaves the two byte writes to do. None changes any register, flag, byte or the engine. The form of the free value and its count are the model's (log 3), and that WAIT and PUTCSUM are single actions is the model's (log 13). (R21, R29, R72, R73, R78, R131, R322) -/
def Obligations.ReadsReturnTheRegisterAndChangeNothing : Prop :=
  (∀ s : State, ReadsAsMapped s)
  ∧ (∀ (s : State) (off : Nat), off ≤ 0xFFC → off % 4 = 0 →
      (readsFree off s = true ↔ s.engine ≠ .idle ∧ (off = 0x18 ∨ (0x20 ≤ off ∧ off ≤ 0x78) ∨ (0x80 ≤ off ∧ off ≤ 0x9C))))
  ∧ ∀ (s : State) (a : HostAction) (rest : List HostAction), turn s = .host a rest →
    (∀ off, a = .rd32 off → off ≤ 0xFFC → off % 4 = 0 → ∃ t, step s = .next t ∧ { t with host := s.host } = s
      ∧ t.host.script = rest
      ∧ t.host.returned = s.host.returned
          ++ [.reg (if readsFree off s then Config.busyRead s.host.freshReads else regRead off s)]
      ∧ t.host.freshReads = if readsFree off s then s.host.freshReads + 1 else s.host.freshReads)
    ∧ (∀ i, a = .rd8 i → i < s.pbufSize → ∃ t, step s = .next t ∧ { t with host := s.host } = s
      ∧ t.host.script = rest ∧ t.host.returned = s.host.returned ++ [.byte (s.byte i)]
      ∧ t.host.freshReads = s.host.freshReads)
    ∧ (a = .wait → ∃ t, step s = .next t ∧ { t with host := s.host } = s
      ∧ t.host.script = (if s.status.done then rest else .wait :: rest)
      ∧ t.host.returned = s.host.returned ++ [.reg (statusWord s)] ∧ t.host.freshReads = s.host.freshReads)
    ∧ (∀ i, a = .putCsum i → ∃ t c, step s = .next t ∧ { t with host := s.host } = s
      ∧ t.host.returned = s.host.returned ++ [.reg c]
      ∧ t.host.script = .wr8 i (c.extractLsb' 8 8) :: .wr8 (i + 1) (c.extractLsb' 0 8) :: rest
      ∧ (s.engine = .idle → c = s.csumRes.setWidth 32 ∧ t.host.freshReads = s.host.freshReads)
      ∧ (s.engine ≠ .idle → c = Config.busyRead s.host.freshReads ∧ t.host.freshReads = s.host.freshReads + 1))

/-- In every state, busy or not, the register at offset 0x14 reads 0x00004242 and its read is never unspecified; a write to it while idle changes nothing, and while a command is pending only sets S_BUSY_WR; it reads the same at and after reset. (R27) -/
def Obligations.PairIdIsHardwired : Prop :=
  (∀ s : State, regRead 0x14 s = 0x00004242 ∧ readsFree 0x14 s = false)
  ∧ (∀ (s : State) (v : Word) (rest : List HostAction), s.engine = .idle → s.host.script = .wr32 0x14 v :: rest →
      step s = .next { s with host := (s.taken rest).host })
  ∧ (∀ (s : State) (v w : Word) (rest : List HostAction), s.engine = .holding w → s.host.script = .wr32 0x14 v :: rest →
      s.host.delay ≠ 0 →
      step s = .next { s with status := { s.status with sBusyWr := true }, host := (s.taken rest).host })
  ∧ regRead 0x14 State.reset = 0x00004242

/-- At 0x1C, 0x7C and 0xA0 to 0xFFC a read gives 0 in every state, busy or not, and a write while idle changes no register, flag or byte; while a command is pending it sets S_BUSY_WR like any other write. (R29) -/
def Obligations.ReservedOffsetsReadZero : Prop :=
  ∀ (s : State) (off : Nat), off % 4 = 0 → (off = 0x1C ∨ off = 0x7C ∨ (0xA0 ≤ off ∧ off ≤ 0xFFC)) →
    regRead off s = 0 ∧ readsFree off s = false
    ∧ (∀ (v : Word) (rest : List HostAction), s.engine = .idle → s.host.script = .wr32 off v :: rest →
        step s = .next { s with host := (s.taken rest).host })
    ∧ (∀ (v w : Word) (rest : List HostAction), s.engine = .holding w → s.host.script = .wr32 off v :: rest →
        s.host.delay ≠ 0 →
        step s = .next { s with status := { s.status with sBusyWr := true }, host := (s.taken rest).host })

/-- In every state the register at 0x04 has BUSY (1 exactly while the engine is not idle) at bit 0, DONE at 1, OUTCOME at 3:2, ERR at 7:4, the warnings at 8 to 12, S_BUSY_WR at 16, and 0 at bits 15:13 and 31:17; OUTCOME is 0 NONE, 1 OK, 2 FOREIGN, 3 ERROR, ERR 0 for none and 1 to 7 for the seven errors in the order of R281. The register at 0x50 has CLASS at 4:0 (0 for no message, 1 to 16 in the order of R120), CODE_KNOWN at 8 and 0 elsewhere; that at 0x80 EMB_VALID at 0, PORTS_VALID at 1 and 0 elsewhere. (R23, R42, R53, R120, R281, R283) -/
def Obligations.StatusFieldPositions : Prop :=
  (∀ s : State,
    regRead 0x04 s = statusWord s
    ∧ (statusWord s).extractLsb' 0 1 = BitVec.ofBool s.busy ∧ (s.busy = true ↔ s.engine ≠ .idle)
    ∧ (statusWord s).extractLsb' 1 1 = BitVec.ofBool s.status.done
    ∧ (statusWord s).extractLsb' 2 2 = outcomeNumber s.status.outcome
    ∧ (statusWord s).extractLsb' 4 4 = errNumber s.status.err
    ∧ (statusWord s).extractLsb' 8 1 = BitVec.ofBool s.status.wLenMismatch
    ∧ (statusWord s).extractLsb' 9 1 = BitVec.ofBool s.status.wUnkType
    ∧ (statusWord s).extractLsb' 10 1 = BitVec.ofBool s.status.wUnkCode
    ∧ (statusWord s).extractLsb' 11 1 = BitVec.ofBool s.status.wEmbBad
    ∧ (statusWord s).extractLsb' 12 1 = BitVec.ofBool s.status.wFieldTrunc
    ∧ (statusWord s).extractLsb' 13 3 = 0 ∧ (statusWord s).extractLsb' 16 1 = BitVec.ofBool s.status.sBusyWr
    ∧ (statusWord s).extractLsb' 17 15 = 0
    ∧ (regRead 0x50 s).extractLsb' 0 5 = classNumber s.ic.cls ∧ (regRead 0x50 s).extractLsb' 5 3 = 0
    ∧ (regRead 0x50 s).extractLsb' 8 1 = BitVec.ofBool s.ic.codeKnown ∧ (regRead 0x50 s).extractLsb' 9 23 = 0
    ∧ (regRead 0x80 s).extractLsb' 0 1 = BitVec.ofBool s.em.embValid
    ∧ (regRead 0x80 s).extractLsb' 1 1 = BitVec.ofBool s.em.portsValid ∧ (regRead 0x80 s).extractLsb' 2 30 = 0)
  ∧ [CmdOutcome.none, .ok, .foreign, .error].map outcomeNumber = [0, 1, 2, 3]
  ∧ [none, some ErrCode.tooShort, some .badVersion, some .badIhl, some .notIcmp, some .icmpShort, some .range,
      some .badCmd].map errNumber = [0, 1, 2, 3, 4, 5, 6, 7]
  ∧ [IcmpClass.noMessage, .echoReply, .echoRequest, .destinationUnreachable, .sourceQuench, .redirect, .routerAdvertisement,
      .routerSolicitation, .timeExceeded, .parameterProblem, .timestamp, .timestampReply, .infoRequest, .infoReply,
      .addressMaskRequest, .addressMaskReply, .unknown].map classNumber
    = [0, 1, 2, 3, 4, 5, 6, 7, 8, 9, 10, 11, 12, 13, 14, 15, 16]

/-- In a good state whose engine holds a command, STATUS reads 1, with bit 16 as S_BUSY_WR. (R84, R261, R264) -/
def Obligations.BusyStatusShowsNothingElse : Prop :=
  ∀ (s : State) (v : Word), GoodState s → s.engine = .holding v →
    statusWord s = if s.status.sBusyWr then 0x00010001 else 0x00000001

/-- At State.reset, and after the reset event from any state, every offset of REG reads 0 except 0x14, which reads 0x4242, and the engine is idle; at State.reset each byte of PBUF is the free value of its index. That PBUF is unspecified after a power-on is stated by the model's free value (log 2). (R67, R312, R313) -/
def Obligations.ResetLeavesRegistersZero : Prop :=
  (∀ off : Nat, regRead off State.reset = if off = 0x14 then 0x4242 else 0)
  ∧ State.reset.engine = .idle
  ∧ (∀ (s : State) (powerOn : Bool), (∀ off : Nat, regRead off (s.resetEvent powerOn) = if off = 0x14 then 0x4242 else 0)
      ∧ (s.resetEvent powerOn).engine = .idle)
  ∧ ∀ i, State.reset.byte i = Config.powerOnByte State.reset.powerCycles i

/-- When the host side moves with a reset event, from any state with a command pending or none, every register takes its reset value, the engine becomes idle, a reset that is not a power-on keeps every byte of PBUF, and a power-on makes every byte the free value of the next power-on and its index. The power-on clause is the model's: R312 says unspecified, the form is log 2's and log 10's. (R310, R311, R312) -/
def Obligations.ResetEventAbandonsTheCommand : Prop :=
  ∀ (s : State) (powerOn : Bool) (rest : List HostAction), turn s = .host (.reset powerOn) rest →
    ∃ t, step s = .next t ∧ (∀ off : Nat, regRead off t = if off = 0x14 then 0x4242 else 0) ∧ t.engine = .idle
      ∧ t.pbufSize = s.pbufSize ∧ (powerOn = false → ∀ i, t.byte i = s.byte i)
      ∧ (powerOn = true → ∀ i, t.byte i = Config.powerOnByte (s.powerCycles + 1) i)

/-- From every state with PKT_LEN = ARG_OFF = ARG_LEN = 0, whatever PBUF holds: CSUM ends OK with 0xFFFF, PARSE_IP and CLASSIFY end with E_TOO_SHORT, PARSE_ICMP with E_ICMP_SHORT. The reset state is one of them. (R314) -/
def Obligations.CommandsWithNoPacket : Prop :=
  (∀ s : State, s.pktLen = 0 → s.argOff = 0 → s.argLen = 0 →
    (∃ t, exec .csum s = .next t ∧ t.csumRes = 0xFFFF ∧ t.status.outcome = .ok)
    ∧ (∃ t, exec .parseIp s = .next t ∧ t.status.outcome = .error ∧ t.status.err = some .tooShort)
    ∧ (∃ t, exec .classify s = .next t ∧ t.status.outcome = .error ∧ t.status.err = some .tooShort)
    ∧ (∃ t, exec .parseIcmp s = .next t ∧ t.status.outcome = .error ∧ t.status.err = some .icmpShort))
  ∧ State.reset.pktLen = 0 ∧ State.reset.argOff = 0 ∧ State.reset.argLen = 0

/-- The invariant GoodState holds at State.reset. (R12, R67, R313) -/
def Obligations.ResetIsAGoodState : Prop :=
  GoodState State.reset

/-- If GoodState holds and step answers a next state, GoodState holds of it: PKT_LEN stays within PBUF_SIZE, PBUF's list keeps its canonical form, the engine holds no NOP and STATUS shows BUSY alone while it holds a command, ERR is set exactly with ERROR, and the IP, IC and EM groups stay consistent. (R12, R24, R35, R36, R37, R42, R53, R264, R282, R283) -/
def Obligations.EveryStepKeepsTheInvariant : Prop :=
  ∀ s t : State, GoodState s → step s = .next t → GoodState t

/-- From every state every instruction answers a next state in which PKT_LEN, ARG_OFF, ARG_LEN, every byte of PBUF and the host's record are unchanged. (R66, R79, R232) -/
def Obligations.EveryInstructionCompletesAndKeepsInputs : Prop :=
  ∀ (i : Instr) (s : State), ∃ t, exec i s = .next t ∧ InputsKept s t

/-- CSUM keeps the IP, IC and EM groups; PARSE_IP keeps CSUM_RES and the IC and EM groups; PARSE_ICMP keeps CSUM_RES and the IP group; CLASSIFY keeps CSUM_RES; all four keep S_BUSY_WR, leave the engine idle and set DONE; each answers a next state. (R66, R262, R323) -/
def Obligations.CommandsKeepGroupsTheyDoNotOwn : Prop :=
  ∀ s : State,
    (∃ t, exec .csum s = .next t ∧ t.ip = s.ip ∧ t.ic = s.ic ∧ t.em = s.em ∧ t.status.sBusyWr = s.status.sBusyWr
      ∧ t.engine = .idle ∧ t.status.done = true)
    ∧ (∃ t, exec .parseIp s = .next t ∧ t.csumRes = s.csumRes ∧ t.ic = s.ic ∧ t.em = s.em
      ∧ t.status.sBusyWr = s.status.sBusyWr ∧ t.engine = .idle ∧ t.status.done = true)
    ∧ (∃ t, exec .parseIcmp s = .next t ∧ t.csumRes = s.csumRes ∧ t.ip = s.ip ∧ t.status.sBusyWr = s.status.sBusyWr
      ∧ t.engine = .idle ∧ t.status.done = true)
    ∧ (∃ t, exec .classify s = .next t ∧ t.csumRes = s.csumRes ∧ t.status.sBusyWr = s.status.sBusyWr
      ∧ t.engine = .idle ∧ t.status.done = true)

/-- If two states agree in PKT_LEN, ARG_OFF, ARG_LEN and the bytes of PBUF below PKT_LEN, then each of CSUM, PARSE_IP, PARSE_ICMP, CLASSIFY and CLEAR leaves the same STATUS[15:0] and the same registers it owns in both, whatever the result registers, STATUS and the bytes at or above PKT_LEN were. (R65, R80, R159) -/
def Obligations.ResultsDependOnInputsAlone : Prop :=
  ∀ (s t : State), SameInputs s t →
    (∀ s' t', exec .csum s = .next s' → exec .csum t = .next t' → SameLowStatus s' t' ∧ s'.csumRes = t'.csumRes)
    ∧ (∀ s' t', exec .parseIp s = .next s' → exec .parseIp t = .next t' → SameLowStatus s' t' ∧ s'.ip = t'.ip)
    ∧ (∀ s' t', exec .parseIcmp s = .next s' → exec .parseIcmp t = .next t' →
        SameLowStatus s' t' ∧ s'.ic = t'.ic ∧ s'.em = t'.em)
    ∧ (∀ s' t', exec .classify s = .next s' → exec .classify t = .next t' →
        SameLowStatus s' t' ∧ s'.ip = t'.ip ∧ s'.ic = t'.ic ∧ s'.em = t'.em)
    ∧ (∀ s' t', exec .clear s = .next s' → exec .clear t = .next t' →
        SameLowStatus s' t' ∧ s'.csumRes = t'.csumRes ∧ s'.ip = t'.ip ∧ s'.ic = t'.ic ∧ s'.em = t'.em)

/-- If the engine holds a word other than 0 and the next host actions, as many as the delay, are in the interface (a PUTCSUM with both its indices) and no reset, then after at most delay + 1 steps the machine has reached a state with the engine idle and DONE set. The delay is the model's form of the open schedule (log 4). (R262, R263) -/
def Obligations.AcceptedCommandCompletes : Prop :=
  ∀ (s : State) (v : Word), s.engine = .holding v → v ≠ 0 →
    (∀ a ∈ s.host.script.take s.host.delay, LegalAction s.pbufSize a
      ∧ (∀ i, a = .putCsum i → i + 1 < s.pbufSize) ∧ ∀ p, a ≠ .reset p) →
    ∃ k t, k ≤ s.host.delay + 1 ∧ Sys2Proof.core.run k s = .next t ∧ t.engine = .idle ∧ t.status.done = true

/-- A host action other than a reset, taken while the engine holds a command, leaves it held and leaves its inputs and every result register; and running the held instruction before or after the action gives the same STATUS[15:0], CSUM_RES and groups. (R83, R263, R321) -/
def Obligations.HostActionsWhileBusyDoNotChangeTheResult : Prop :=
  ∀ (s t : State) (v : Word) (a : HostAction) (rest : List HostAction), s.engine = .holding v → turn s = .host a rest →
    (∀ p, a ≠ .reset p) → step s = .next t →
    t.engine = .holding v ∧ SameInputs s t ∧ SameLowStatus s t
    ∧ t.csumRes = s.csumRes ∧ t.ip = s.ip ∧ t.ic = s.ic ∧ t.em = s.em
    ∧ ∀ i s' t', decode (.command v) = .ok i → exec i s = .next s' → exec i t = .next t' →
        SameLowStatus s' t' ∧ s'.csumRes = t'.csumRes ∧ s'.ip = t'.ip ∧ s'.ic = t'.ic ∧ s'.em = t'.em

/-- With the engine idle, a host action that is neither a reset nor a write of a word other than 0 to CMD, if it goes on, leaves STATUS, CSUM_RES, the three groups and the idle engine unchanged. (R64, R84, R323) -/
def Obligations.ResultsStayUntilTheNextAcceptance : Prop :=
  ∀ (s t : State) (a : HostAction) (rest : List HostAction), s.engine = .idle → s.host.script = a :: rest →
    (∀ p, a ≠ .reset p) → (∀ v, a = .wr32 0 v → v = 0) → step s = .next t →
    t.engine = .idle ∧ t.status = s.status ∧ t.csumRes = s.csumRes ∧ t.ip = s.ip ∧ t.ic = s.ic ∧ t.em = s.em

/-- When the engine is due with a pending word that decodes to i, step is exec of i at that state; likewise at the dispatch point with the key in IC_W0[31:16]; the zero word runs as NOP at its write to CMD; and a word placed by withFetchWord that decodes to i is run by the very next step. The rules cited give only that the completion step runs the command its pending word decodes to. When that step is due is the model's (log 4); that a step exists at the dispatch point and that withFetchWord places a key there is the model's, since a completion is atomic (log 6); that NOP runs at its write is the model's reading (log 17); that the host's action precedes it is the model's (log 5). (R102, R262) -/
def Obligations.StepRunsTheDecodedInstruction : Prop :=
  (∀ (s : State) (v : Word) (i : Instr), s.engine = .holding v → (s.host.script = [] ∨ s.host.delay = 0) →
    decode (.command v) = .ok i → step s = exec i s)
  ∧ (∀ (s : State) (i : Instr), s.engine = .dispatching → decode (.icmpKey (s.ic.w0.extractLsb' 16 16)) = .ok i →
    step s = exec i s)
  ∧ (∀ (s : State) (rest : List HostAction), s.engine = .idle → s.host.script = .wr32 0 0 :: rest →
    step s = exec .nop (s.taken rest))
  ∧ (∀ (s : State) (nbits w : Nat) (i : Instr), decodeTableWord nbits w = some i → i ≠ .nop →
    step (s.withFetchWord nbits w) = exec i (s.withFetchWord nbits w))
  ∧ ∀ (s : State) (nbits w : Nat), decodeTableWord nbits w = some .nop →
    step (s.withFetchWord nbits w) = exec .nop ((s.withFetchWord nbits w).taken s.host.script)

/-- A step answers a next state unless the host moves with a REG access beyond 0xFFC or not at a multiple of 4, or a PBUF access at or above PBUF_SIZE; then it does not. That these stop the model, and how, is the model's choice within U3 (log 9). A PUTCSUM moves with its RD32 of CSUM_RES, whatever its index: a byte write of it that the interface does not have stops at its own turn (R131; that PUTCSUM is one action is log 13's choice). (R72, R73, R131, R233) -/
def Obligations.StepStopsOnlyOutsideTheInterface : Prop :=
  ∀ s : State, (∃ t, step s = .next t) ↔ ∀ a rest, turn s = .host a rest → LegalAction s.pbufSize a
end

