-- ==== Sys2Proof/Laws/Bits.lean ====
section
/-! SUPPORT. The joined and sliced bit fields as numbers. -/

namespace Sys2Proof

/-- Two joined fields as a number. -/
theorem append_toNat {n m : Nat} (a : BitVec n) (b : BitVec m) : (a ++ b).toNat = a.toNat * 2 ^ m + b.toNat := by
  rw [BitVec.toNat_append, Nat.shiftLeft_eq, Nat.mul_comm, ← Nat.two_pow_add_eq_or_of_lt b.isLt]

/-- The key's number: `type * 256 + code` (30_encoding.md R121). -/
theorem icmpKeyOf_toNat (t code : Byte) : (icmpKeyOf t code).toNat = t.toNat * 256 + code.toNat := by
  have := t.isLt
  have := code.isLt
  rw [icmpKeyOf, BitVec.toNat_setWidth, append_toNat]
  omega

namespace Machine

/-- `be16` as a number (00_scope.md R17). -/
theorem State.be16_toNat (s : State) (i : Nat) :
    (s.be16 i).toNat = (s.byte i).toNat * 256 + (s.byte (i + 1)).toNat := by
  have := (s.byte i).isLt
  have := (s.byte (i + 1)).isLt
  rw [State.be16, BitVec.toNat_setWidth, append_toNat]
  omega

/-- `be32` as a number (00_scope.md R17). -/
theorem State.be32_toNat (s : State) (i : Nat) :
    (s.be32 i).toNat = (s.byte i).toNat * 2 ^ 24 + (s.byte (i + 1)).toNat * 2 ^ 16 + (s.byte (i + 2)).toNat * 2 ^ 8
      + (s.byte (i + 3)).toNat := by
  have := (s.byte i).isLt
  have := (s.byte (i + 1)).isLt
  have := (s.byte (i + 2)).isLt
  have := (s.byte (i + 3)).isLt
  rw [State.be32, BitVec.toNat_setWidth, append_toNat, append_toNat, append_toNat]
  omega

/-- A big-endian checksum word as a number (40_checksum.md R150). -/
theorem wordOfBytes_toNat (hi lo : Byte) : (wordOfBytes hi lo).toNat = hi.toNat * 256 + lo.toNat := by
  have := hi.isLt
  have := lo.isLt
  rw [wordOfBytes, BitVec.toNat_setWidth, append_toNat]
  omega

theorem lowerHalf_toNat (w : Word) : (lowerHalf w).toNat = w.toNat % 65536 := by
  simp [lowerHalf, BitVec.extractLsb'_toNat]

theorem upperHalf_toNat (w : Word) : (upperHalf w).toNat = w.toNat / 65536 := by
  have := w.isLt
  simp only [upperHalf, BitVec.extractLsb'_toNat, Nat.shiftRight_eq_div_pow]
  omega

theorem byte3_toNat (w : Word) : (byte3 w).toNat = w.toNat / 2 ^ 24 := by
  have := w.isLt
  simp only [byte3, BitVec.extractLsb'_toNat, Nat.shiftRight_eq_div_pow]
  omega

theorem byte2_toNat (w : Word) : (byte2 w).toNat = w.toNat / 2 ^ 16 % 256 := by
  simp only [byte2, BitVec.extractLsb'_toNat, Nat.shiftRight_eq_div_pow]

theorem highNibble_toNat (b : Byte) : (highNibble b).toNat = b.toNat / 16 := by
  have := b.isLt
  simp only [highNibble, BitVec.extractLsb'_toNat, Nat.shiftRight_eq_div_pow]
  omega

theorem lowNibble_toNat (b : Byte) : (lowNibble b).toNat = b.toNat % 16 := by
  simp [lowNibble, BitVec.extractLsb'_toNat]

/-- The upper half of a register whose upper half was replaced. -/
theorem upperHalf_withUpperHalf (k : Half) (w : Word) : upperHalf (withUpperHalf k w) = k := by
  apply BitVec.eq_of_toNat_eq
  have := k.isLt
  have := (lowerHalf w).isLt
  rw [upperHalf_toNat, withUpperHalf, BitVec.toNat_setWidth, append_toNat]
  omega

end Machine
end Sys2Proof
end

