-- ==== Sys2Proof/Laws/Decode.lean ====
section
/-! SUPPORT. What the two decoders select, said once: the row of a type and a code (30_encoding.md R121), and the instruction of
a command word (R102, R103, R105). -/

namespace Sys2Proof

/-- The type of a key. -/
theorem icmpKeyOf_type (t code : Byte) : (icmpKeyOf t code).extractLsb' 8 8 = t := by
  apply BitVec.eq_of_toNat_eq
  have := t.isLt; have := code.isLt
  simp only [BitVec.extractLsb'_toNat, icmpKeyOf_toNat, Nat.shiftRight_eq_div_pow]; omega

/-- The code of a key. -/
theorem icmpKeyOf_code (t code : Byte) : (icmpKeyOf t code).extractLsb' 0 8 = code := by
  apply BitVec.eq_of_toNat_eq
  have := t.isLt; have := code.isLt
  simp only [BitVec.extractLsb'_toNat, icmpKeyOf_toNat, Nat.shiftRight_eq_div_pow]; omega

/-- Every key is the key of its type and its code. -/
theorem icmpKeyOf_slices (k : Half) : icmpKeyOf (k.extractLsb' 8 8) (k.extractLsb' 0 8) = k := by
  apply BitVec.eq_of_toNat_eq
  have := k.isLt
  simp only [BitVec.extractLsb'_toNat, icmpKeyOf_toNat, Nat.shiftRight_eq_div_pow]; omega

/-- The bits of the mask of an `ICMP-T` row. -/
theorem type_mask_bit : ∀ i : Fin 16, (0xFF00#16)[i] = decide (8 ≤ i.val) := by decide

/-- The mask of an `ICMP-T` row keeps the type. -/
theorem icmpKeyOf_and_type (t code : Byte) : icmpKeyOf t code &&& 0xFF00 = icmpKeyOf t 0 := by
  ext i hi
  have hm := type_mask_bit ⟨i, hi⟩
  simp only [Fin.getElem_fin] at hm
  simp only [icmpKeyOf, BitVec.getElem_and, BitVec.getElem_setWidth, BitVec.getLsbD_append]
  erw [hm]
  by_cases h : i < 8
  · have : ¬ 8 ≤ i := by omega
    simp [h, this]
  · have : 8 ≤ i := by omega
    simp [h, this]

/-- The first row of a joined list. -/
theorem firstRow_append (k : Half) (l m : List IcmpRow) : firstRow k (l ++ m) = (firstRow k l).or (firstRow k m) := by
  induction l with
  | nil => rfl
  | cons r l ih =>
    simp only [List.cons_append, firstRow, ih]
    split <;> rfl

/-- The mask of an `ICMP-TC` row keeps the key. -/
theorem key_and_all (k : Half) : k &&& 0xFFFF = k := by
  have : (0xFFFF : Half) = BitVec.allOnes 16 := rfl
  rw [this, BitVec.and_allOnes]

/-- A key has one type and one code. -/
theorem icmpKeyOf_inj (t code u d : Byte) : icmpKeyOf t code = icmpKeyOf u d ↔ t = u ∧ code = d := by
  constructor
  · intro h
    exact ⟨by rw [← icmpKeyOf_type t code, h, icmpKeyOf_type], by rw [← icmpKeyOf_code t code, h, icmpKeyOf_code]⟩
  · rintro ⟨rfl, rfl⟩; rfl

/-- Which row the ICMP decoder selects, by type and code (30_encoding.md R120 to R124, R126). -/
theorem decodeIcmp_key (t code : Byte) :
    decodeIcmp (icmpKeyOf t code) =
    if t = 3 then
      if code = 0 then .icmpDestUnreachNetwork else if code = 1 then .icmpDestUnreachHost
      else if code = 2 then .icmpDestUnreachProtocol else if code = 3 then .icmpDestUnreachPort
      else if code = 4 then .icmpDestUnreachNeedsFragment else if code = 5 then .icmpDestUnreachSourceRouteFailed
      else .icmpDestinationUnreachable code
    else if t = 5 then
      if code = 0 then .icmpRedirectNetwork else if code = 1 then .icmpRedirectHost
      else if code = 2 then .icmpRedirectTosNetwork else if code = 3 then .icmpRedirectTosHost else .icmpRedirect code
    else if t = 11 then
      if code = 0 then .icmpTimeExceededInTransit else if code = 1 then .icmpTimeExceededReassembly
      else .icmpTimeExceeded code
    else if t = 0 then .icmpEchoReply code else if t = 8 then .icmpEchoRequest code
    else if t = 4 then .icmpSourceQuench code else if t = 9 then .icmpRouterAdvertisement code
    else if t = 10 then .icmpRouterSolicitation code else if t = 12 then .icmpParameterProblem code
    else if t = 13 then .icmpTimestamp code else if t = 14 then .icmpTimestampReply code
    else if t = 15 then .icmpInfoRequest code else if t = 16 then .icmpInfoReply code
    else if t = 17 then .icmpAddressMaskRequest code else if t = 18 then .icmpAddressMaskReply code
    else .icmpUnknown t code := by
  have tc : ∀ (u d : Byte) (f : Byte → Byte → Instr),
      IcmpRow.hits ⟨icmpKeyOf u d, 0xFFFF, f⟩ (icmpKeyOf t code) = decide (t = u ∧ code = d) := by
    intro u d f; simp only [IcmpRow.hits, key_and_all, icmpKeyOf_inj]
  have tt : ∀ (u : Byte) (f : Byte → Byte → Instr),
      IcmpRow.hits ⟨icmpKeyOf u 0, 0xFF00, f⟩ (icmpKeyOf t code) = decide (t = u) := by
    intro u f; simp only [IcmpRow.hits, icmpKeyOf_and_type, icmpKeyOf_inj, and_true]
  have e1 : icmpTcRows = [
  ⟨icmpKeyOf 3 0, 0xFFFF, fun _ _ => .icmpDestUnreachNetwork⟩,
  ⟨icmpKeyOf 3 1, 0xFFFF, fun _ _ => .icmpDestUnreachHost⟩,
  ⟨icmpKeyOf 3 2, 0xFFFF, fun _ _ => .icmpDestUnreachProtocol⟩,
  ⟨icmpKeyOf 3 3, 0xFFFF, fun _ _ => .icmpDestUnreachPort⟩,
  ⟨icmpKeyOf 3 4, 0xFFFF, fun _ _ => .icmpDestUnreachNeedsFragment⟩,
  ⟨icmpKeyOf 3 5, 0xFFFF, fun _ _ => .icmpDestUnreachSourceRouteFailed⟩,
  ⟨icmpKeyOf 5 0, 0xFFFF, fun _ _ => .icmpRedirectNetwork⟩,
  ⟨icmpKeyOf 5 1, 0xFFFF, fun _ _ => .icmpRedirectHost⟩,
  ⟨icmpKeyOf 5 2, 0xFFFF, fun _ _ => .icmpRedirectTosNetwork⟩,
  ⟨icmpKeyOf 5 3, 0xFFFF, fun _ _ => .icmpRedirectTosHost⟩,
  ⟨icmpKeyOf 11 0, 0xFFFF, fun _ _ => .icmpTimeExceededInTransit⟩,
  ⟨icmpKeyOf 11 1, 0xFFFF, fun _ _ => .icmpTimeExceededReassembly⟩] := rfl
  have e2 : icmpTRows = [
  ⟨icmpKeyOf 0 0, 0xFF00, fun _ code => .icmpEchoReply code⟩,
  ⟨icmpKeyOf 8 0, 0xFF00, fun _ code => .icmpEchoRequest code⟩,
  ⟨icmpKeyOf 3 0, 0xFF00, fun _ code => .icmpDestinationUnreachable code⟩,
  ⟨icmpKeyOf 4 0, 0xFF00, fun _ code => .icmpSourceQuench code⟩,
  ⟨icmpKeyOf 5 0, 0xFF00, fun _ code => .icmpRedirect code⟩,
  ⟨icmpKeyOf 9 0, 0xFF00, fun _ code => .icmpRouterAdvertisement code⟩,
  ⟨icmpKeyOf 10 0, 0xFF00, fun _ code => .icmpRouterSolicitation code⟩,
  ⟨icmpKeyOf 11 0, 0xFF00, fun _ code => .icmpTimeExceeded code⟩,
  ⟨icmpKeyOf 12 0, 0xFF00, fun _ code => .icmpParameterProblem code⟩,
  ⟨icmpKeyOf 13 0, 0xFF00, fun _ code => .icmpTimestamp code⟩,
  ⟨icmpKeyOf 14 0, 0xFF00, fun _ code => .icmpTimestampReply code⟩,
  ⟨icmpKeyOf 15 0, 0xFF00, fun _ code => .icmpInfoRequest code⟩,
  ⟨icmpKeyOf 16 0, 0xFF00, fun _ code => .icmpInfoReply code⟩,
  ⟨icmpKeyOf 17 0, 0xFF00, fun _ code => .icmpAddressMaskRequest code⟩,
  ⟨icmpKeyOf 18 0, 0xFF00, fun _ code => .icmpAddressMaskReply code⟩] := rfl
  by_cases h3 : t = 3
  · subst h3
    simp only [decodeIcmp, icmpKeyOf_type, icmpKeyOf_code, e1, e2, List.cons_append, List.nil_append, firstRow, tc, tt]
    simp only [show ((3 : Byte) = 5) = False by decide, show ((3 : Byte) = 11) = False by decide, false_and, true_and,
      decide_eq_true_eq, if_false, if_true, decide_false, Bool.false_eq_true]
    repeat' (first | rfl | split)
  by_cases h5 : t = 5
  · subst h5
    simp only [decodeIcmp, icmpKeyOf_type, icmpKeyOf_code, e1, e2, List.cons_append, List.nil_append, firstRow, tc, tt]
    simp only [show ((5 : Byte) = 3) = False by decide, show ((5 : Byte) = 11) = False by decide, false_and, true_and,
      decide_eq_true_eq, if_false, if_true, decide_false, Bool.false_eq_true]
    repeat' (first | rfl | split)
  by_cases h11 : t = 11
  · subst h11
    simp only [decodeIcmp, icmpKeyOf_type, icmpKeyOf_code, e1, e2, List.cons_append, List.nil_append, firstRow, tc, tt]
    simp only [show ((11 : Byte) = 3) = False by decide, show ((11 : Byte) = 5) = False by decide, false_and, true_and,
      decide_eq_true_eq, if_false, if_true, decide_false, Bool.false_eq_true]
    repeat' (first | rfl | split)
  have hn : firstRow (icmpKeyOf t code) icmpTcRows = none := by
    rw [e1]; simp only [firstRow, tc, h3, h5, h11, false_and, decide_false, Bool.false_eq_true, if_false]
  rw [decodeIcmp, firstRow_append, hn, Option.none_or, e2, icmpKeyOf_type, icmpKeyOf_code]
  simp only [firstRow, tt, decide_eq_true_eq]
  rw [if_neg h3, if_neg h5, if_neg h11, if_neg h3, if_neg h5, if_neg h11]
  by_cases h : t = 0
  · rw [if_pos h, if_pos h]; rfl
  rw [if_neg h, if_neg h]; clear h
  by_cases h : t = 8
  · rw [if_pos h, if_pos h]; rfl
  rw [if_neg h, if_neg h]; clear h
  by_cases h : t = 4
  · rw [if_pos h, if_pos h]; rfl
  rw [if_neg h, if_neg h]; clear h
  by_cases h : t = 9
  · rw [if_pos h, if_pos h]; rfl
  rw [if_neg h, if_neg h]; clear h
  by_cases h : t = 10
  · rw [if_pos h, if_pos h]; rfl
  rw [if_neg h, if_neg h]; clear h
  by_cases h : t = 12
  · rw [if_pos h, if_pos h]; rfl
  rw [if_neg h, if_neg h]; clear h
  by_cases h : t = 13
  · rw [if_pos h, if_pos h]; rfl
  rw [if_neg h, if_neg h]; clear h
  by_cases h : t = 14
  · rw [if_pos h, if_pos h]; rfl
  rw [if_neg h, if_neg h]; clear h
  by_cases h : t = 15
  · rw [if_pos h, if_pos h]; rfl
  rw [if_neg h, if_neg h]; clear h
  by_cases h : t = 16
  · rw [if_pos h, if_pos h]; rfl
  rw [if_neg h, if_neg h]; clear h
  by_cases h : t = 17
  · rw [if_pos h, if_pos h]; rfl
  rw [if_neg h, if_neg h]; clear h
  by_cases h : t = 18
  · rw [if_pos h, if_pos h]; rfl
  rw [if_neg h, if_neg h]; clear h
  rfl

/-- What the command decoder answers for a word, by its upper 24 bits and its low byte (30_encoding.md R102, R103, R105). -/
theorem decodeCommand_cases (v : Word) :
    (v.extractLsb' 8 24 ≠ 0 ∧ decodeCommand v = .error .reservedUpperBits)
    ∨ (v.extractLsb' 8 24 = 0 ∧ 6 ≤ (v.extractLsb' 0 8).toNat ∧ decodeCommand v = .error .reservedOpcode)
    ∨ (v = 0 ∧ decodeCommand v = .ok .nop) ∨ (v = 1 ∧ decodeCommand v = .ok .csum)
    ∨ (v = 2 ∧ decodeCommand v = .ok .parseIp) ∨ (v = 3 ∧ decodeCommand v = .ok .parseIcmp)
    ∨ (v = 4 ∧ decodeCommand v = .ok .classify) ∨ (v = 5 ∧ decodeCommand v = .ok .clear) := by
  by_cases h : v.extractLsb' 8 24 = 0
  · by_cases h6 : 6 ≤ (v.extractLsb' 0 8).toNat
    · refine .inr (.inl ⟨h, h6, ?_⟩)
      unfold decodeCommand
      rw [if_pos h]
      split <;> first | rfl | omega
    · have hv : v.toNat = (v.extractLsb' 0 8).toNat := by
        have h0 : (v.extractLsb' 8 24).toNat = 0 := by rw [h]; rfl
        have := v.isLt
        simp only [BitVec.extractLsb'_toNat, Nat.shiftRight_eq_div_pow] at h0 ⊢
        omega
      have h8 : v.toNat < 6 := by omega
      have : v = 0 ∨ v = 1 ∨ v = 2 ∨ v = 3 ∨ v = 4 ∨ v = 5 := by
        simp only [← BitVec.toNat_inj]
        show v.toNat = 0 ∨ v.toNat = 1 ∨ v.toNat = 2 ∨ v.toNat = 3 ∨ v.toNat = 4 ∨ v.toNat = 5
        omega
      rcases this with rfl | rfl | rfl | rfl | rfl | rfl <;> simp [decodeCommand]
  · exact .inl ⟨h, if_neg h⟩

end Sys2Proof
end

