-- ==== Sys2Proof/Laws/State.lean ====
section
/-! SUPPORT. What each named update of the state does to each field, and to the bytes of `PBUF`: no proof need unfold an
update. -/

namespace Sys2Proof.Machine

@[simp] theorem Status.cleared_cleared (st : Status) : st.cleared.cleared = st.cleared := rfl


/-! `State.beginCommand` -/

@[simp] theorem State.beginCommand_status (s : State) : s.beginCommand.status = s.status.cleared := rfl
@[simp] theorem State.beginCommand_pktLen (s : State) : s.beginCommand.pktLen = s.pktLen := rfl
@[simp] theorem State.beginCommand_argOff (s : State) : s.beginCommand.argOff = s.argOff := rfl
@[simp] theorem State.beginCommand_argLen (s : State) : s.beginCommand.argLen = s.argLen := rfl
@[simp] theorem State.beginCommand_csumRes (s : State) : s.beginCommand.csumRes = s.csumRes := rfl
@[simp] theorem State.beginCommand_ip (s : State) : s.beginCommand.ip = s.ip := rfl
@[simp] theorem State.beginCommand_ic (s : State) : s.beginCommand.ic = s.ic := rfl
@[simp] theorem State.beginCommand_em (s : State) : s.beginCommand.em = s.em := rfl
@[simp] theorem State.beginCommand_engine (s : State) : s.beginCommand.engine = s.engine := rfl
@[simp] theorem State.beginCommand_pbufSize (s : State) : s.beginCommand.pbufSize = s.pbufSize := rfl
@[simp] theorem State.beginCommand_pbuf (s : State) : s.beginCommand.pbuf = s.pbuf := rfl
@[simp] theorem State.beginCommand_powerCycles (s : State) : s.beginCommand.powerCycles = s.powerCycles := rfl
@[simp] theorem State.beginCommand_host (s : State) : s.beginCommand.host = s.host := rfl
@[simp] theorem State.beginCommand_byte (s : State) : s.beginCommand.byte = s.byte := rfl
@[simp] theorem State.beginCommand_be16 (s : State) : s.beginCommand.be16 = s.be16 := rfl
@[simp] theorem State.beginCommand_be32 (s : State) : s.beginCommand.be32 = s.be32 := rfl

/-! `State.zeroIp` -/

@[simp] theorem State.zeroIp_status (s : State) : s.zeroIp.status = s.status := rfl
@[simp] theorem State.zeroIp_pktLen (s : State) : s.zeroIp.pktLen = s.pktLen := rfl
@[simp] theorem State.zeroIp_argOff (s : State) : s.zeroIp.argOff = s.argOff := rfl
@[simp] theorem State.zeroIp_argLen (s : State) : s.zeroIp.argLen = s.argLen := rfl
@[simp] theorem State.zeroIp_csumRes (s : State) : s.zeroIp.csumRes = s.csumRes := rfl
@[simp] theorem State.zeroIp_ip (s : State) : s.zeroIp.ip = {} := rfl
@[simp] theorem State.zeroIp_ic (s : State) : s.zeroIp.ic = s.ic := rfl
@[simp] theorem State.zeroIp_em (s : State) : s.zeroIp.em = s.em := rfl
@[simp] theorem State.zeroIp_engine (s : State) : s.zeroIp.engine = s.engine := rfl
@[simp] theorem State.zeroIp_pbufSize (s : State) : s.zeroIp.pbufSize = s.pbufSize := rfl
@[simp] theorem State.zeroIp_pbuf (s : State) : s.zeroIp.pbuf = s.pbuf := rfl
@[simp] theorem State.zeroIp_powerCycles (s : State) : s.zeroIp.powerCycles = s.powerCycles := rfl
@[simp] theorem State.zeroIp_host (s : State) : s.zeroIp.host = s.host := rfl
@[simp] theorem State.zeroIp_byte (s : State) : s.zeroIp.byte = s.byte := rfl
@[simp] theorem State.zeroIp_be16 (s : State) : s.zeroIp.be16 = s.be16 := rfl
@[simp] theorem State.zeroIp_be32 (s : State) : s.zeroIp.be32 = s.be32 := rfl

/-! `State.zeroIcEm` -/

@[simp] theorem State.zeroIcEm_status (s : State) : s.zeroIcEm.status = s.status := rfl
@[simp] theorem State.zeroIcEm_pktLen (s : State) : s.zeroIcEm.pktLen = s.pktLen := rfl
@[simp] theorem State.zeroIcEm_argOff (s : State) : s.zeroIcEm.argOff = s.argOff := rfl
@[simp] theorem State.zeroIcEm_argLen (s : State) : s.zeroIcEm.argLen = s.argLen := rfl
@[simp] theorem State.zeroIcEm_csumRes (s : State) : s.zeroIcEm.csumRes = s.csumRes := rfl
@[simp] theorem State.zeroIcEm_ip (s : State) : s.zeroIcEm.ip = s.ip := rfl
@[simp] theorem State.zeroIcEm_ic (s : State) : s.zeroIcEm.ic = {} := rfl
@[simp] theorem State.zeroIcEm_em (s : State) : s.zeroIcEm.em = {} := rfl
@[simp] theorem State.zeroIcEm_engine (s : State) : s.zeroIcEm.engine = s.engine := rfl
@[simp] theorem State.zeroIcEm_pbufSize (s : State) : s.zeroIcEm.pbufSize = s.pbufSize := rfl
@[simp] theorem State.zeroIcEm_pbuf (s : State) : s.zeroIcEm.pbuf = s.pbuf := rfl
@[simp] theorem State.zeroIcEm_powerCycles (s : State) : s.zeroIcEm.powerCycles = s.powerCycles := rfl
@[simp] theorem State.zeroIcEm_host (s : State) : s.zeroIcEm.host = s.host := rfl
@[simp] theorem State.zeroIcEm_byte (s : State) : s.zeroIcEm.byte = s.byte := rfl
@[simp] theorem State.zeroIcEm_be16 (s : State) : s.zeroIcEm.be16 = s.be16 := rfl
@[simp] theorem State.zeroIcEm_be32 (s : State) : s.zeroIcEm.be32 = s.be32 := rfl

/-! `State.finish` -/

@[simp] theorem State.finish_status (o : CmdOutcome) (s : State) : (s.finish o).status = { s.status with outcome := o, err := none, done := true } := rfl
@[simp] theorem State.finish_pktLen (o : CmdOutcome) (s : State) : (s.finish o).pktLen = s.pktLen := rfl
@[simp] theorem State.finish_argOff (o : CmdOutcome) (s : State) : (s.finish o).argOff = s.argOff := rfl
@[simp] theorem State.finish_argLen (o : CmdOutcome) (s : State) : (s.finish o).argLen = s.argLen := rfl
@[simp] theorem State.finish_csumRes (o : CmdOutcome) (s : State) : (s.finish o).csumRes = s.csumRes := rfl
@[simp] theorem State.finish_ip (o : CmdOutcome) (s : State) : (s.finish o).ip = s.ip := rfl
@[simp] theorem State.finish_ic (o : CmdOutcome) (s : State) : (s.finish o).ic = s.ic := rfl
@[simp] theorem State.finish_em (o : CmdOutcome) (s : State) : (s.finish o).em = s.em := rfl
@[simp] theorem State.finish_engine (o : CmdOutcome) (s : State) : (s.finish o).engine = .idle := rfl
@[simp] theorem State.finish_pbufSize (o : CmdOutcome) (s : State) : (s.finish o).pbufSize = s.pbufSize := rfl
@[simp] theorem State.finish_pbuf (o : CmdOutcome) (s : State) : (s.finish o).pbuf = s.pbuf := rfl
@[simp] theorem State.finish_powerCycles (o : CmdOutcome) (s : State) : (s.finish o).powerCycles = s.powerCycles := rfl
@[simp] theorem State.finish_host (o : CmdOutcome) (s : State) : (s.finish o).host = s.host := rfl
@[simp] theorem State.finish_byte (o : CmdOutcome) (s : State) : (s.finish o).byte = s.byte := rfl
@[simp] theorem State.finish_be16 (o : CmdOutcome) (s : State) : (s.finish o).be16 = s.be16 := rfl
@[simp] theorem State.finish_be32 (o : CmdOutcome) (s : State) : (s.finish o).be32 = s.be32 := rfl

/-! `State.raise` -/

@[simp] theorem State.raise_status (e : ErrCode) (s : State) : (s.raise e).status = { s.status with outcome := .error, err := some e, done := true } := rfl
@[simp] theorem State.raise_pktLen (e : ErrCode) (s : State) : (s.raise e).pktLen = s.pktLen := rfl
@[simp] theorem State.raise_argOff (e : ErrCode) (s : State) : (s.raise e).argOff = s.argOff := rfl
@[simp] theorem State.raise_argLen (e : ErrCode) (s : State) : (s.raise e).argLen = s.argLen := rfl
@[simp] theorem State.raise_csumRes (e : ErrCode) (s : State) : (s.raise e).csumRes = s.csumRes := rfl
@[simp] theorem State.raise_ip (e : ErrCode) (s : State) : (s.raise e).ip = s.ip := rfl
@[simp] theorem State.raise_ic (e : ErrCode) (s : State) : (s.raise e).ic = s.ic := rfl
@[simp] theorem State.raise_em (e : ErrCode) (s : State) : (s.raise e).em = s.em := rfl
@[simp] theorem State.raise_engine (e : ErrCode) (s : State) : (s.raise e).engine = .idle := rfl
@[simp] theorem State.raise_pbufSize (e : ErrCode) (s : State) : (s.raise e).pbufSize = s.pbufSize := rfl
@[simp] theorem State.raise_pbuf (e : ErrCode) (s : State) : (s.raise e).pbuf = s.pbuf := rfl
@[simp] theorem State.raise_powerCycles (e : ErrCode) (s : State) : (s.raise e).powerCycles = s.powerCycles := rfl
@[simp] theorem State.raise_host (e : ErrCode) (s : State) : (s.raise e).host = s.host := rfl
@[simp] theorem State.raise_byte (e : ErrCode) (s : State) : (s.raise e).byte = s.byte := rfl
@[simp] theorem State.raise_be16 (e : ErrCode) (s : State) : (s.raise e).be16 = s.be16 := rfl
@[simp] theorem State.raise_be32 (e : ErrCode) (s : State) : (s.raise e).be32 = s.be32 := rfl

/-! `State.completeReserved` -/

@[simp] theorem State.completeReserved_status (s : State) : s.completeReserved.status = { s.status.cleared with outcome := .error, err := some .badCmd, done := true } := rfl
@[simp] theorem State.completeReserved_pktLen (s : State) : s.completeReserved.pktLen = s.pktLen := rfl
@[simp] theorem State.completeReserved_argOff (s : State) : s.completeReserved.argOff = s.argOff := rfl
@[simp] theorem State.completeReserved_argLen (s : State) : s.completeReserved.argLen = s.argLen := rfl
@[simp] theorem State.completeReserved_csumRes (s : State) : s.completeReserved.csumRes = s.csumRes := rfl
@[simp] theorem State.completeReserved_ip (s : State) : s.completeReserved.ip = s.ip := rfl
@[simp] theorem State.completeReserved_ic (s : State) : s.completeReserved.ic = s.ic := rfl
@[simp] theorem State.completeReserved_em (s : State) : s.completeReserved.em = s.em := rfl
@[simp] theorem State.completeReserved_engine (s : State) : s.completeReserved.engine = .idle := rfl
@[simp] theorem State.completeReserved_pbufSize (s : State) : s.completeReserved.pbufSize = s.pbufSize := rfl
@[simp] theorem State.completeReserved_pbuf (s : State) : s.completeReserved.pbuf = s.pbuf := rfl
@[simp] theorem State.completeReserved_powerCycles (s : State) : s.completeReserved.powerCycles = s.powerCycles := rfl
@[simp] theorem State.completeReserved_host (s : State) : s.completeReserved.host = s.host := rfl
@[simp] theorem State.completeReserved_byte (s : State) : s.completeReserved.byte = s.byte := rfl
@[simp] theorem State.completeReserved_be16 (s : State) : s.completeReserved.be16 = s.be16 := rfl
@[simp] theorem State.completeReserved_be32 (s : State) : s.completeReserved.be32 = s.be32 := rfl

/-! `State.accept` -/

@[simp] theorem State.accept_status (v : Word) (s : State) : (s.accept v).status = s.status.cleared := rfl
@[simp] theorem State.accept_pktLen (v : Word) (s : State) : (s.accept v).pktLen = s.pktLen := rfl
@[simp] theorem State.accept_argOff (v : Word) (s : State) : (s.accept v).argOff = s.argOff := rfl
@[simp] theorem State.accept_argLen (v : Word) (s : State) : (s.accept v).argLen = s.argLen := rfl
@[simp] theorem State.accept_csumRes (v : Word) (s : State) : (s.accept v).csumRes = s.csumRes := rfl
@[simp] theorem State.accept_ip (v : Word) (s : State) : (s.accept v).ip = s.ip := rfl
@[simp] theorem State.accept_ic (v : Word) (s : State) : (s.accept v).ic = s.ic := rfl
@[simp] theorem State.accept_em (v : Word) (s : State) : (s.accept v).em = s.em := rfl
@[simp] theorem State.accept_engine (v : Word) (s : State) : (s.accept v).engine = .holding v := rfl
@[simp] theorem State.accept_pbufSize (v : Word) (s : State) : (s.accept v).pbufSize = s.pbufSize := rfl
@[simp] theorem State.accept_pbuf (v : Word) (s : State) : (s.accept v).pbuf = s.pbuf := rfl
@[simp] theorem State.accept_powerCycles (v : Word) (s : State) : (s.accept v).powerCycles = s.powerCycles := rfl
@[simp] theorem State.accept_host (v : Word) (s : State) : (s.accept v).host = { s.host with delay := s.host.schedule.headD 0, schedule := s.host.schedule.tail } := rfl
@[simp] theorem State.accept_byte (v : Word) (s : State) : (s.accept v).byte = s.byte := rfl
@[simp] theorem State.accept_be16 (v : Word) (s : State) : (s.accept v).be16 = s.be16 := rfl
@[simp] theorem State.accept_be32 (v : Word) (s : State) : (s.accept v).be32 = s.be32 := rfl

/-! `State.ignoredWrite` -/

@[simp] theorem State.ignoredWrite_status (s : State) : s.ignoredWrite.status = { s.status with sBusyWr := true } := rfl
@[simp] theorem State.ignoredWrite_pktLen (s : State) : s.ignoredWrite.pktLen = s.pktLen := rfl
@[simp] theorem State.ignoredWrite_argOff (s : State) : s.ignoredWrite.argOff = s.argOff := rfl
@[simp] theorem State.ignoredWrite_argLen (s : State) : s.ignoredWrite.argLen = s.argLen := rfl
@[simp] theorem State.ignoredWrite_csumRes (s : State) : s.ignoredWrite.csumRes = s.csumRes := rfl
@[simp] theorem State.ignoredWrite_ip (s : State) : s.ignoredWrite.ip = s.ip := rfl
@[simp] theorem State.ignoredWrite_ic (s : State) : s.ignoredWrite.ic = s.ic := rfl
@[simp] theorem State.ignoredWrite_em (s : State) : s.ignoredWrite.em = s.em := rfl
@[simp] theorem State.ignoredWrite_engine (s : State) : s.ignoredWrite.engine = s.engine := rfl
@[simp] theorem State.ignoredWrite_pbufSize (s : State) : s.ignoredWrite.pbufSize = s.pbufSize := rfl
@[simp] theorem State.ignoredWrite_pbuf (s : State) : s.ignoredWrite.pbuf = s.pbuf := rfl
@[simp] theorem State.ignoredWrite_powerCycles (s : State) : s.ignoredWrite.powerCycles = s.powerCycles := rfl
@[simp] theorem State.ignoredWrite_host (s : State) : s.ignoredWrite.host = s.host := rfl
@[simp] theorem State.ignoredWrite_byte (s : State) : s.ignoredWrite.byte = s.byte := rfl
@[simp] theorem State.ignoredWrite_be16 (s : State) : s.ignoredWrite.be16 = s.be16 := rfl
@[simp] theorem State.ignoredWrite_be32 (s : State) : s.ignoredWrite.be32 = s.be32 := rfl

/-! `State.setByte` -/

@[simp] theorem State.setByte_status (i : Nat) (b : Byte) (s : State) : (s.setByte i b).status = s.status := rfl
@[simp] theorem State.setByte_pktLen (i : Nat) (b : Byte) (s : State) : (s.setByte i b).pktLen = s.pktLen := rfl
@[simp] theorem State.setByte_argOff (i : Nat) (b : Byte) (s : State) : (s.setByte i b).argOff = s.argOff := rfl
@[simp] theorem State.setByte_argLen (i : Nat) (b : Byte) (s : State) : (s.setByte i b).argLen = s.argLen := rfl
@[simp] theorem State.setByte_csumRes (i : Nat) (b : Byte) (s : State) : (s.setByte i b).csumRes = s.csumRes := rfl
@[simp] theorem State.setByte_ip (i : Nat) (b : Byte) (s : State) : (s.setByte i b).ip = s.ip := rfl
@[simp] theorem State.setByte_ic (i : Nat) (b : Byte) (s : State) : (s.setByte i b).ic = s.ic := rfl
@[simp] theorem State.setByte_em (i : Nat) (b : Byte) (s : State) : (s.setByte i b).em = s.em := rfl
@[simp] theorem State.setByte_engine (i : Nat) (b : Byte) (s : State) : (s.setByte i b).engine = s.engine := rfl
@[simp] theorem State.setByte_pbufSize (i : Nat) (b : Byte) (s : State) : (s.setByte i b).pbufSize = s.pbufSize := rfl
@[simp] theorem State.setByte_pbuf (i : Nat) (b : Byte) (s : State) : (s.setByte i b).pbuf = Memory.set s.pbuf i b := rfl
@[simp] theorem State.setByte_powerCycles (i : Nat) (b : Byte) (s : State) : (s.setByte i b).powerCycles = s.powerCycles := rfl
@[simp] theorem State.setByte_host (i : Nat) (b : Byte) (s : State) : (s.setByte i b).host = s.host := rfl

/-! `State.warnLenMismatch` -/

@[simp] theorem State.warnLenMismatch_status (c : Bool) (s : State) : (s.warnLenMismatch c).status = { s.status with wLenMismatch := c || s.status.wLenMismatch } := by cases c <;> rfl
@[simp] theorem State.warnLenMismatch_pktLen (c : Bool) (s : State) : (s.warnLenMismatch c).pktLen = s.pktLen := by cases c <;> rfl
@[simp] theorem State.warnLenMismatch_argOff (c : Bool) (s : State) : (s.warnLenMismatch c).argOff = s.argOff := by cases c <;> rfl
@[simp] theorem State.warnLenMismatch_argLen (c : Bool) (s : State) : (s.warnLenMismatch c).argLen = s.argLen := by cases c <;> rfl
@[simp] theorem State.warnLenMismatch_csumRes (c : Bool) (s : State) : (s.warnLenMismatch c).csumRes = s.csumRes := by cases c <;> rfl
@[simp] theorem State.warnLenMismatch_ip (c : Bool) (s : State) : (s.warnLenMismatch c).ip = s.ip := by cases c <;> rfl
@[simp] theorem State.warnLenMismatch_ic (c : Bool) (s : State) : (s.warnLenMismatch c).ic = s.ic := by cases c <;> rfl
@[simp] theorem State.warnLenMismatch_em (c : Bool) (s : State) : (s.warnLenMismatch c).em = s.em := by cases c <;> rfl
@[simp] theorem State.warnLenMismatch_engine (c : Bool) (s : State) : (s.warnLenMismatch c).engine = s.engine := by cases c <;> rfl
@[simp] theorem State.warnLenMismatch_pbufSize (c : Bool) (s : State) : (s.warnLenMismatch c).pbufSize = s.pbufSize := by cases c <;> rfl
@[simp] theorem State.warnLenMismatch_pbuf (c : Bool) (s : State) : (s.warnLenMismatch c).pbuf = s.pbuf := by cases c <;> rfl
@[simp] theorem State.warnLenMismatch_powerCycles (c : Bool) (s : State) : (s.warnLenMismatch c).powerCycles = s.powerCycles := by cases c <;> rfl
@[simp] theorem State.warnLenMismatch_host (c : Bool) (s : State) : (s.warnLenMismatch c).host = s.host := by cases c <;> rfl
@[simp] theorem State.warnLenMismatch_byte (c : Bool) (s : State) : (s.warnLenMismatch c).byte = s.byte := by funext i; simp [State.byte]
@[simp] theorem State.warnLenMismatch_be16 (c : Bool) (s : State) : (s.warnLenMismatch c).be16 = s.be16 := by funext i; simp [State.be16]
@[simp] theorem State.warnLenMismatch_be32 (c : Bool) (s : State) : (s.warnLenMismatch c).be32 = s.be32 := by funext i; simp [State.be32]

/-! `State.warnUnkType` -/

@[simp] theorem State.warnUnkType_status (c : Bool) (s : State) : (s.warnUnkType c).status = { s.status with wUnkType := c || s.status.wUnkType } := by cases c <;> rfl
@[simp] theorem State.warnUnkType_pktLen (c : Bool) (s : State) : (s.warnUnkType c).pktLen = s.pktLen := by cases c <;> rfl
@[simp] theorem State.warnUnkType_argOff (c : Bool) (s : State) : (s.warnUnkType c).argOff = s.argOff := by cases c <;> rfl
@[simp] theorem State.warnUnkType_argLen (c : Bool) (s : State) : (s.warnUnkType c).argLen = s.argLen := by cases c <;> rfl
@[simp] theorem State.warnUnkType_csumRes (c : Bool) (s : State) : (s.warnUnkType c).csumRes = s.csumRes := by cases c <;> rfl
@[simp] theorem State.warnUnkType_ip (c : Bool) (s : State) : (s.warnUnkType c).ip = s.ip := by cases c <;> rfl
@[simp] theorem State.warnUnkType_ic (c : Bool) (s : State) : (s.warnUnkType c).ic = s.ic := by cases c <;> rfl
@[simp] theorem State.warnUnkType_em (c : Bool) (s : State) : (s.warnUnkType c).em = s.em := by cases c <;> rfl
@[simp] theorem State.warnUnkType_engine (c : Bool) (s : State) : (s.warnUnkType c).engine = s.engine := by cases c <;> rfl
@[simp] theorem State.warnUnkType_pbufSize (c : Bool) (s : State) : (s.warnUnkType c).pbufSize = s.pbufSize := by cases c <;> rfl
@[simp] theorem State.warnUnkType_pbuf (c : Bool) (s : State) : (s.warnUnkType c).pbuf = s.pbuf := by cases c <;> rfl
@[simp] theorem State.warnUnkType_powerCycles (c : Bool) (s : State) : (s.warnUnkType c).powerCycles = s.powerCycles := by cases c <;> rfl
@[simp] theorem State.warnUnkType_host (c : Bool) (s : State) : (s.warnUnkType c).host = s.host := by cases c <;> rfl
@[simp] theorem State.warnUnkType_byte (c : Bool) (s : State) : (s.warnUnkType c).byte = s.byte := by funext i; simp [State.byte]
@[simp] theorem State.warnUnkType_be16 (c : Bool) (s : State) : (s.warnUnkType c).be16 = s.be16 := by funext i; simp [State.be16]
@[simp] theorem State.warnUnkType_be32 (c : Bool) (s : State) : (s.warnUnkType c).be32 = s.be32 := by funext i; simp [State.be32]

/-! `State.warnUnkCode` -/

@[simp] theorem State.warnUnkCode_status (c : Bool) (s : State) : (s.warnUnkCode c).status = { s.status with wUnkCode := c || s.status.wUnkCode } := by cases c <;> rfl
@[simp] theorem State.warnUnkCode_pktLen (c : Bool) (s : State) : (s.warnUnkCode c).pktLen = s.pktLen := by cases c <;> rfl
@[simp] theorem State.warnUnkCode_argOff (c : Bool) (s : State) : (s.warnUnkCode c).argOff = s.argOff := by cases c <;> rfl
@[simp] theorem State.warnUnkCode_argLen (c : Bool) (s : State) : (s.warnUnkCode c).argLen = s.argLen := by cases c <;> rfl
@[simp] theorem State.warnUnkCode_csumRes (c : Bool) (s : State) : (s.warnUnkCode c).csumRes = s.csumRes := by cases c <;> rfl
@[simp] theorem State.warnUnkCode_ip (c : Bool) (s : State) : (s.warnUnkCode c).ip = s.ip := by cases c <;> rfl
@[simp] theorem State.warnUnkCode_ic (c : Bool) (s : State) : (s.warnUnkCode c).ic = s.ic := by cases c <;> rfl
@[simp] theorem State.warnUnkCode_em (c : Bool) (s : State) : (s.warnUnkCode c).em = s.em := by cases c <;> rfl
@[simp] theorem State.warnUnkCode_engine (c : Bool) (s : State) : (s.warnUnkCode c).engine = s.engine := by cases c <;> rfl
@[simp] theorem State.warnUnkCode_pbufSize (c : Bool) (s : State) : (s.warnUnkCode c).pbufSize = s.pbufSize := by cases c <;> rfl
@[simp] theorem State.warnUnkCode_pbuf (c : Bool) (s : State) : (s.warnUnkCode c).pbuf = s.pbuf := by cases c <;> rfl
@[simp] theorem State.warnUnkCode_powerCycles (c : Bool) (s : State) : (s.warnUnkCode c).powerCycles = s.powerCycles := by cases c <;> rfl
@[simp] theorem State.warnUnkCode_host (c : Bool) (s : State) : (s.warnUnkCode c).host = s.host := by cases c <;> rfl
@[simp] theorem State.warnUnkCode_byte (c : Bool) (s : State) : (s.warnUnkCode c).byte = s.byte := by funext i; simp [State.byte]
@[simp] theorem State.warnUnkCode_be16 (c : Bool) (s : State) : (s.warnUnkCode c).be16 = s.be16 := by funext i; simp [State.be16]
@[simp] theorem State.warnUnkCode_be32 (c : Bool) (s : State) : (s.warnUnkCode c).be32 = s.be32 := by funext i; simp [State.be32]

/-! `State.warnEmbBad` -/

@[simp] theorem State.warnEmbBad_status (s : State) : s.warnEmbBad.status = { s.status with wEmbBad := true } := rfl
@[simp] theorem State.warnEmbBad_pktLen (s : State) : s.warnEmbBad.pktLen = s.pktLen := rfl
@[simp] theorem State.warnEmbBad_argOff (s : State) : s.warnEmbBad.argOff = s.argOff := rfl
@[simp] theorem State.warnEmbBad_argLen (s : State) : s.warnEmbBad.argLen = s.argLen := rfl
@[simp] theorem State.warnEmbBad_csumRes (s : State) : s.warnEmbBad.csumRes = s.csumRes := rfl
@[simp] theorem State.warnEmbBad_ip (s : State) : s.warnEmbBad.ip = s.ip := rfl
@[simp] theorem State.warnEmbBad_ic (s : State) : s.warnEmbBad.ic = s.ic := rfl
@[simp] theorem State.warnEmbBad_em (s : State) : s.warnEmbBad.em = s.em := rfl
@[simp] theorem State.warnEmbBad_engine (s : State) : s.warnEmbBad.engine = s.engine := rfl
@[simp] theorem State.warnEmbBad_pbufSize (s : State) : s.warnEmbBad.pbufSize = s.pbufSize := rfl
@[simp] theorem State.warnEmbBad_pbuf (s : State) : s.warnEmbBad.pbuf = s.pbuf := rfl
@[simp] theorem State.warnEmbBad_powerCycles (s : State) : s.warnEmbBad.powerCycles = s.powerCycles := rfl
@[simp] theorem State.warnEmbBad_host (s : State) : s.warnEmbBad.host = s.host := rfl
@[simp] theorem State.warnEmbBad_byte (s : State) : s.warnEmbBad.byte = s.byte := rfl
@[simp] theorem State.warnEmbBad_be16 (s : State) : s.warnEmbBad.be16 = s.be16 := rfl
@[simp] theorem State.warnEmbBad_be32 (s : State) : s.warnEmbBad.be32 = s.be32 := rfl

/-! `State.warnFieldTrunc` -/

@[simp] theorem State.warnFieldTrunc_status (s : State) : s.warnFieldTrunc.status = { s.status with wFieldTrunc := true } := rfl
@[simp] theorem State.warnFieldTrunc_pktLen (s : State) : s.warnFieldTrunc.pktLen = s.pktLen := rfl
@[simp] theorem State.warnFieldTrunc_argOff (s : State) : s.warnFieldTrunc.argOff = s.argOff := rfl
@[simp] theorem State.warnFieldTrunc_argLen (s : State) : s.warnFieldTrunc.argLen = s.argLen := rfl
@[simp] theorem State.warnFieldTrunc_csumRes (s : State) : s.warnFieldTrunc.csumRes = s.csumRes := rfl
@[simp] theorem State.warnFieldTrunc_ip (s : State) : s.warnFieldTrunc.ip = s.ip := rfl
@[simp] theorem State.warnFieldTrunc_ic (s : State) : s.warnFieldTrunc.ic = s.ic := rfl
@[simp] theorem State.warnFieldTrunc_em (s : State) : s.warnFieldTrunc.em = s.em := rfl
@[simp] theorem State.warnFieldTrunc_engine (s : State) : s.warnFieldTrunc.engine = s.engine := rfl
@[simp] theorem State.warnFieldTrunc_pbufSize (s : State) : s.warnFieldTrunc.pbufSize = s.pbufSize := rfl
@[simp] theorem State.warnFieldTrunc_pbuf (s : State) : s.warnFieldTrunc.pbuf = s.pbuf := rfl
@[simp] theorem State.warnFieldTrunc_powerCycles (s : State) : s.warnFieldTrunc.powerCycles = s.powerCycles := rfl
@[simp] theorem State.warnFieldTrunc_host (s : State) : s.warnFieldTrunc.host = s.host := rfl
@[simp] theorem State.warnFieldTrunc_byte (s : State) : s.warnFieldTrunc.byte = s.byte := rfl
@[simp] theorem State.warnFieldTrunc_be16 (s : State) : s.warnFieldTrunc.be16 = s.be16 := rfl
@[simp] theorem State.warnFieldTrunc_be32 (s : State) : s.warnFieldTrunc.be32 = s.be32 := rfl

/-! `State.answer` -/

@[simp] theorem State.answer_status (r : HostRead) (s : State) : (s.answer r).status = s.status := rfl
@[simp] theorem State.answer_pktLen (r : HostRead) (s : State) : (s.answer r).pktLen = s.pktLen := rfl
@[simp] theorem State.answer_argOff (r : HostRead) (s : State) : (s.answer r).argOff = s.argOff := rfl
@[simp] theorem State.answer_argLen (r : HostRead) (s : State) : (s.answer r).argLen = s.argLen := rfl
@[simp] theorem State.answer_csumRes (r : HostRead) (s : State) : (s.answer r).csumRes = s.csumRes := rfl
@[simp] theorem State.answer_ip (r : HostRead) (s : State) : (s.answer r).ip = s.ip := rfl
@[simp] theorem State.answer_ic (r : HostRead) (s : State) : (s.answer r).ic = s.ic := rfl
@[simp] theorem State.answer_em (r : HostRead) (s : State) : (s.answer r).em = s.em := rfl
@[simp] theorem State.answer_engine (r : HostRead) (s : State) : (s.answer r).engine = s.engine := rfl
@[simp] theorem State.answer_pbufSize (r : HostRead) (s : State) : (s.answer r).pbufSize = s.pbufSize := rfl
@[simp] theorem State.answer_pbuf (r : HostRead) (s : State) : (s.answer r).pbuf = s.pbuf := rfl
@[simp] theorem State.answer_powerCycles (r : HostRead) (s : State) : (s.answer r).powerCycles = s.powerCycles := rfl
@[simp] theorem State.answer_host (r : HostRead) (s : State) : (s.answer r).host = { s.host with returned := s.host.returned ++ [r] } := rfl
@[simp] theorem State.answer_byte (r : HostRead) (s : State) : (s.answer r).byte = s.byte := rfl
@[simp] theorem State.answer_be16 (r : HostRead) (s : State) : (s.answer r).be16 = s.be16 := rfl
@[simp] theorem State.answer_be32 (r : HostRead) (s : State) : (s.answer r).be32 = s.be32 := rfl

/-! `State.taken` -/

@[simp] theorem State.taken_status (rest : List HostAction) (s : State) : (s.taken rest).status = s.status := rfl
@[simp] theorem State.taken_pktLen (rest : List HostAction) (s : State) : (s.taken rest).pktLen = s.pktLen := rfl
@[simp] theorem State.taken_argOff (rest : List HostAction) (s : State) : (s.taken rest).argOff = s.argOff := rfl
@[simp] theorem State.taken_argLen (rest : List HostAction) (s : State) : (s.taken rest).argLen = s.argLen := rfl
@[simp] theorem State.taken_csumRes (rest : List HostAction) (s : State) : (s.taken rest).csumRes = s.csumRes := rfl
@[simp] theorem State.taken_ip (rest : List HostAction) (s : State) : (s.taken rest).ip = s.ip := rfl
@[simp] theorem State.taken_ic (rest : List HostAction) (s : State) : (s.taken rest).ic = s.ic := rfl
@[simp] theorem State.taken_em (rest : List HostAction) (s : State) : (s.taken rest).em = s.em := rfl
@[simp] theorem State.taken_engine (rest : List HostAction) (s : State) : (s.taken rest).engine = s.engine := rfl
@[simp] theorem State.taken_pbufSize (rest : List HostAction) (s : State) : (s.taken rest).pbufSize = s.pbufSize := rfl
@[simp] theorem State.taken_pbuf (rest : List HostAction) (s : State) : (s.taken rest).pbuf = s.pbuf := rfl
@[simp] theorem State.taken_powerCycles (rest : List HostAction) (s : State) : (s.taken rest).powerCycles = s.powerCycles := rfl
@[simp] theorem State.taken_host (rest : List HostAction) (s : State) : (s.taken rest).host = { s.host with script := rest, delay := s.host.delay - 1 } := rfl
@[simp] theorem State.taken_byte (rest : List HostAction) (s : State) : (s.taken rest).byte = s.byte := rfl
@[simp] theorem State.taken_be16 (rest : List HostAction) (s : State) : (s.taken rest).be16 = s.be16 := rfl
@[simp] theorem State.taken_be32 (rest : List HostAction) (s : State) : (s.taken rest).be32 = s.be32 := rfl

/-! `State.withPorts` -/

@[simp] theorem State.withPorts_status (e n : Nat) (s : State) : (s.withPorts e n).status = s.status := rfl
@[simp] theorem State.withPorts_pktLen (e n : Nat) (s : State) : (s.withPorts e n).pktLen = s.pktLen := rfl
@[simp] theorem State.withPorts_argOff (e n : Nat) (s : State) : (s.withPorts e n).argOff = s.argOff := rfl
@[simp] theorem State.withPorts_argLen (e n : Nat) (s : State) : (s.withPorts e n).argLen = s.argLen := rfl
@[simp] theorem State.withPorts_csumRes (e n : Nat) (s : State) : (s.withPorts e n).csumRes = s.csumRes := rfl
@[simp] theorem State.withPorts_ip (e n : Nat) (s : State) : (s.withPorts e n).ip = s.ip := rfl
@[simp] theorem State.withPorts_ic (e n : Nat) (s : State) : (s.withPorts e n).ic = s.ic := rfl
@[simp] theorem State.withPorts_em (e n : Nat) (s : State) : (s.withPorts e n).em = { s.em with portsValid := true, sport := s.be16 (e + n), dport := s.be16 (e + n + 2) } := rfl
@[simp] theorem State.withPorts_engine (e n : Nat) (s : State) : (s.withPorts e n).engine = s.engine := rfl
@[simp] theorem State.withPorts_pbufSize (e n : Nat) (s : State) : (s.withPorts e n).pbufSize = s.pbufSize := rfl
@[simp] theorem State.withPorts_pbuf (e n : Nat) (s : State) : (s.withPorts e n).pbuf = s.pbuf := rfl
@[simp] theorem State.withPorts_powerCycles (e n : Nat) (s : State) : (s.withPorts e n).powerCycles = s.powerCycles := rfl
@[simp] theorem State.withPorts_host (e n : Nat) (s : State) : (s.withPorts e n).host = s.host := rfl
@[simp] theorem State.withPorts_byte (e n : Nat) (s : State) : (s.withPorts e n).byte = s.byte := rfl
@[simp] theorem State.withPorts_be16 (e n : Nat) (s : State) : (s.withPorts e n).be16 = s.be16 := rfl
@[simp] theorem State.withPorts_be32 (e n : Nat) (s : State) : (s.withPorts e n).be32 = s.be32 := rfl

/-! `State.classified` -/

@[simp] theorem State.classified_status (c : IcmpClass) (k : Bool) (s : State) : (s.classified c k).status = { s.status with wUnkCode := !k || s.status.wUnkCode, wUnkType := decide (c = .unknown) || s.status.wUnkType } := by simp [State.classified]
@[simp] theorem State.classified_pktLen (c : IcmpClass) (k : Bool) (s : State) : (s.classified c k).pktLen = s.pktLen := by simp [State.classified]
@[simp] theorem State.classified_argOff (c : IcmpClass) (k : Bool) (s : State) : (s.classified c k).argOff = s.argOff := by simp [State.classified]
@[simp] theorem State.classified_argLen (c : IcmpClass) (k : Bool) (s : State) : (s.classified c k).argLen = s.argLen := by simp [State.classified]
@[simp] theorem State.classified_csumRes (c : IcmpClass) (k : Bool) (s : State) : (s.classified c k).csumRes = s.csumRes := by simp [State.classified]
@[simp] theorem State.classified_ip (c : IcmpClass) (k : Bool) (s : State) : (s.classified c k).ip = s.ip := by simp [State.classified]
@[simp] theorem State.classified_ic (c : IcmpClass) (k : Bool) (s : State) : (s.classified c k).ic = { s.ic with cls := c, codeKnown := k } := by simp [State.classified]
@[simp] theorem State.classified_em (c : IcmpClass) (k : Bool) (s : State) : (s.classified c k).em = s.em := by simp [State.classified]
@[simp] theorem State.classified_engine (c : IcmpClass) (k : Bool) (s : State) : (s.classified c k).engine = s.engine := by simp [State.classified]
@[simp] theorem State.classified_pbufSize (c : IcmpClass) (k : Bool) (s : State) : (s.classified c k).pbufSize = s.pbufSize := by simp [State.classified]
@[simp] theorem State.classified_pbuf (c : IcmpClass) (k : Bool) (s : State) : (s.classified c k).pbuf = s.pbuf := by simp [State.classified]
@[simp] theorem State.classified_powerCycles (c : IcmpClass) (k : Bool) (s : State) : (s.classified c k).powerCycles = s.powerCycles := by simp [State.classified]
@[simp] theorem State.classified_host (c : IcmpClass) (k : Bool) (s : State) : (s.classified c k).host = s.host := by simp [State.classified]
@[simp] theorem State.classified_byte (c : IcmpClass) (k : Bool) (s : State) : (s.classified c k).byte = s.byte := by funext i; simp [State.byte]
@[simp] theorem State.classified_be16 (c : IcmpClass) (k : Bool) (s : State) : (s.classified c k).be16 = s.be16 := by funext i; simp [State.be16]
@[simp] theorem State.classified_be32 (c : IcmpClass) (k : Bool) (s : State) : (s.classified c k).be32 = s.be32 := by funext i; simp [State.be32]

/-! `State.resetEvent` -/

@[simp] theorem State.resetEvent_status (p : Bool) (s : State) : (s.resetEvent p).status = {} := rfl
@[simp] theorem State.resetEvent_pktLen (p : Bool) (s : State) : (s.resetEvent p).pktLen = 0 := rfl
@[simp] theorem State.resetEvent_argOff (p : Bool) (s : State) : (s.resetEvent p).argOff = 0 := rfl
@[simp] theorem State.resetEvent_argLen (p : Bool) (s : State) : (s.resetEvent p).argLen = 0 := rfl
@[simp] theorem State.resetEvent_csumRes (p : Bool) (s : State) : (s.resetEvent p).csumRes = 0 := rfl
@[simp] theorem State.resetEvent_ip (p : Bool) (s : State) : (s.resetEvent p).ip = {} := rfl
@[simp] theorem State.resetEvent_ic (p : Bool) (s : State) : (s.resetEvent p).ic = {} := rfl
@[simp] theorem State.resetEvent_em (p : Bool) (s : State) : (s.resetEvent p).em = {} := rfl
@[simp] theorem State.resetEvent_engine (p : Bool) (s : State) : (s.resetEvent p).engine = .idle := rfl
@[simp] theorem State.resetEvent_pbufSize (p : Bool) (s : State) : (s.resetEvent p).pbufSize = s.pbufSize := rfl
@[simp] theorem State.resetEvent_pbuf (p : Bool) (s : State) : (s.resetEvent p).pbuf = if p then [] else s.pbuf := rfl
@[simp] theorem State.resetEvent_powerCycles (p : Bool) (s : State) : (s.resetEvent p).powerCycles = if p then s.powerCycles + 1 else s.powerCycles := rfl
@[simp] theorem State.resetEvent_host (p : Bool) (s : State) : (s.resetEvent p).host = s.host := rfl

end Sys2Proof.Machine
end

