-- ==== Sys2Proof/Laws/Host.lean ====
section
/-! SUPPORT. What the host's side of the machine can do, said once: which offset is which register, the turn, an action, a
register write. -/

namespace Sys2Proof.Machine

/-- Finding in a joined map is finding in the first part, then in the second. -/
theorem registerIn_append (off : Nat) (m n : List RegRow) :
    registerIn off (List.append m n) = (registerIn off m).or (registerIn off n) := by
  induction m with
  | nil => simp [registerIn]
  | cons r m ih =>
    show (if r.1 = off then some r.2 else registerIn off (List.append m n)) = Option.or (if r.1 = off then some r.2 else registerIn off m) _
    split
    · rfl
    · exact ih

/-- The offset that a map gives a register stands in the map. -/
theorem registerIn_mem {off : Nat} {r : Reg} {m : List RegRow} (h : registerIn off m = some r) : (off, r) ∈ m := by
  induction m with
  | nil => cases h
  | cons c m ih =>
    obtain ⟨o, q⟩ := c
    simp only [registerIn] at h
    split at h
    · cases h; subst_vars; exact List.mem_cons_self
    · exact List.mem_cons_of_mem _ (ih h)

/-- `CMD` stands at offset 0 and nowhere else. -/
theorem registerAt_cmd (off : Nat) : registerAt off = some .cmd ↔ off = 0 := by
  constructor
  · intro h
    have := registerIn_mem h
    simpa [registerMap, controlMap, ipMap, icMap, emMap] using this
  · rintro rfl; rfl

/-- `PKT_LEN` stands at offset 8 and nowhere else. -/
theorem registerAt_pktLen (off : Nat) : registerAt off = some .pktLen ↔ off = 8 := by
  constructor
  · intro h
    have := registerIn_mem h
    simpa [registerMap, controlMap, ipMap, icMap, emMap] using this
  · rintro rfl; rfl

/-- `ARG_OFF` stands at offset 0x0C and nowhere else. -/
theorem registerAt_argOff (off : Nat) : registerAt off = some .argOff ↔ off = 0x0C := by
  constructor
  · intro h
    have := registerIn_mem h
    simpa [registerMap, controlMap, ipMap, icMap, emMap] using this
  · rintro rfl; rfl

/-- `ARG_LEN` stands at offset 0x10 and nowhere else. -/
theorem registerAt_argLen (off : Nat) : registerAt off = some .argLen ↔ off = 0x10 := by
  constructor
  · intro h
    have := registerIn_mem h
    simpa [registerMap, controlMap, ipMap, icMap, emMap] using this
  · rintro rfl; rfl

/-- All that a register write can do while no command is in progress. -/
theorem writeReg_cases (off : Nat) (v : Word) (s : State) :
    (off = 8 ∧ writeReg off v s = { s with pktLen := BitVec.ofNat 16 (min (lowerHalf v).toNat s.pbufSize) })
    ∨ (off = 0x0C ∧ writeReg off v s = { s with argOff := lowerHalf v })
    ∨ (off = 0x10 ∧ writeReg off v s = { s with argLen := lowerHalf v })
    ∨ (off ≠ 8 ∧ off ≠ 0x0C ∧ off ≠ 0x10 ∧ writeReg off v s = s) := by
  unfold writeReg
  split
  · exact .inl ⟨(registerAt_pktLen off).1 ‹_›, rfl⟩
  · exact .inr (.inl ⟨(registerAt_argOff off).1 ‹_›, rfl⟩)
  · exact .inr (.inr (.inl ⟨(registerAt_argLen off).1 ‹_›, rfl⟩))
  · rename_i h1 h2 h3
    refine .inr (.inr (.inr ⟨fun h => h1 ((registerAt_pktLen off).2 h), fun h => h2 ((registerAt_argOff off).2 h),
      fun h => h3 ((registerAt_argLen off).2 h), rfl⟩))

/-- All that `WR32` can do (20_memory.md R72; 45_control_commands.md R261; 70_reset_and_hazards.md R321). -/
theorem wr32_cases (off : Nat) (v : Word) (s : State) :
    (s.busy = true ∧ wr32 off v s = .next s.ignoredWrite)
    ∨ (s.busy = false ∧ off = 0 ∧ v = 0 ∧ wr32 off v s = .next s)
    ∨ (s.busy = false ∧ off = 0 ∧ v ≠ 0 ∧ wr32 off v s = .next (s.accept v))
    ∨ (s.busy = false ∧ off ≠ 0 ∧ wr32 off v s = .next (writeReg off v s)) := by
  unfold wr32 writeCmd execNop
  split
  · exact .inl ⟨‹_›, rfl⟩
  · have hb : s.busy = false := Bool.eq_false_iff.2 ‹_›
    split
    · rename_i h
      split
      · exact .inr (.inl ⟨hb, (registerAt_cmd off).1 h, ‹_›, rfl⟩)
      · exact .inr (.inr (.inl ⟨hb, (registerAt_cmd off).1 h, ‹_›, rfl⟩))
    · rename_i h
      exact .inr (.inr (.inr ⟨hb, fun h0 => h ((registerAt_cmd off).2 h0), rfl⟩))

/-- All that `RD32` can do: the host is told a value; an unspecified one also counts a fresh read. -/
theorem rd32_cases (off : Nat) (s : State) :
    (readsFree off s = true ∧ rd32 off s = { s with host := { s.host with
        freshReads := s.host.freshReads + 1, returned := s.host.returned ++ [.reg (Config.busyRead s.host.freshReads)] } })
    ∨ (readsFree off s = false
        ∧ rd32 off s = { s with host := { s.host with returned := s.host.returned ++ [.reg (regRead off s)] } }) := by
  unfold rd32
  split
  · exact .inl ⟨‹_›, rfl⟩
  · exact .inr ⟨Bool.eq_false_iff.2 ‹_›, rfl⟩

/-- An action that the interface has is not stopped; one that it has not does not go on. -/
theorem hostTurn_cases (a : HostAction) (rest : List HostAction) (s : State) :
    (LegalAction s.pbufSize a ∧
      ((∃ off v, a = .wr32 off v ∧ hostTurn a rest s = wr32 off v (s.taken rest))
      ∨ (∃ off, a = .rd32 off ∧ hostTurn a rest s = .next (rd32 off (s.taken rest)))
      ∨ (∃ i b, a = .wr8 i b ∧ i < s.pbufSize ∧ hostTurn a rest s = .next (wr8 i b (s.taken rest)))
      ∨ (∃ i, a = .rd8 i ∧ i < s.pbufSize ∧ hostTurn a rest s = .next (rd8 i (s.taken rest)))
      ∨ (a = .wait ∧ hostTurn a rest s = .next (waitPoll rest s))
      ∨ (∃ i, a = .putCsum i ∧ hostTurn a rest s = .next (putCsumRead i rest s))
      ∨ (∃ p, a = .reset p ∧ hostTurn a rest s = .next ((s.taken rest).resetEvent p))))
    ∨ (¬ LegalAction s.pbufSize a ∧ ∀ t, hostTurn a rest s ≠ .next t) := by
  have onReg : ∀ (off : Nat) (o : Outcome),
      ((off ≤ 0xFFC ∧ off % 4 = 0) ∧ onRegister off o = o)
      ∨ (¬(off ≤ 0xFFC ∧ off % 4 = 0) ∧ ∀ t, onRegister off o ≠ .next t) := by
    intro off o
    unfold onRegister regLast
    split
    · exact .inr ⟨by omega, fun t h => by cases h⟩
    · split
      · exact .inr ⟨by omega, fun t h => by cases h⟩
      · exact .inl ⟨by omega, rfl⟩
  have onBuf : ∀ (i : Nat) (o : Outcome),
      (i < s.pbufSize ∧ onBuffer i s o = o) ∨ (¬ i < s.pbufSize ∧ ∀ t, onBuffer i s o ≠ .next t) := by
    intro i o
    unfold onBuffer
    split
    · exact .inl ⟨‹_›, rfl⟩
    · exact .inr ⟨‹_›, fun t h => by cases h⟩
  cases a with
  | wr32 off v =>
    rcases onReg off (wr32 off v (s.taken rest)) with ⟨hl, h⟩ | ⟨hl, h⟩
    · exact .inl ⟨hl, .inl ⟨off, v, rfl, h⟩⟩
    · exact .inr ⟨hl, h⟩
  | rd32 off =>
    rcases onReg off (.next (rd32 off (s.taken rest))) with ⟨hl, h⟩ | ⟨hl, h⟩
    · exact .inl ⟨hl, .inr (.inl ⟨off, rfl, h⟩)⟩
    · exact .inr ⟨hl, h⟩
  | wr8 i b =>
    rcases onBuf i (.next (wr8 i b (s.taken rest))) with ⟨hl, h⟩ | ⟨hl, h⟩
    · exact .inl ⟨hl, .inr (.inr (.inl ⟨i, b, rfl, hl, h⟩))⟩
    · exact .inr ⟨hl, h⟩
  | rd8 i =>
    rcases onBuf i (.next (rd8 i (s.taken rest))) with ⟨hl, h⟩ | ⟨hl, h⟩
    · exact .inl ⟨hl, .inr (.inr (.inr (.inl ⟨i, rfl, hl, h⟩)))⟩
    · exact .inr ⟨hl, h⟩
  | wait => exact .inl ⟨trivial, .inr (.inr (.inr (.inr (.inl ⟨rfl, rfl⟩))))⟩
  | putCsum i => exact .inl ⟨trivial, .inr (.inr (.inr (.inr (.inr (.inl ⟨i, rfl, rfl⟩)))))⟩
  | reset p => exact .inl ⟨trivial, .inr (.inr (.inr (.inr (.inr (.inr ⟨p, rfl, rfl⟩)))))⟩

/-- All that decides who moves next (45_control_commands.md R262, R263). -/
theorem turn_cases (s : State) :
    (s.engine = .idle ∧ s.host.script = [] ∧ turn s = .nobody)
    ∨ (∃ a rest, s.engine = .idle ∧ s.host.script = a :: rest ∧ turn s = .host a rest)
    ∨ (∃ v, s.engine = .holding v ∧ (s.host.script = [] ∨ s.host.delay = 0) ∧ turn s = .engine (.command v))
    ∨ (∃ v a rest, s.engine = .holding v ∧ s.host.script = a :: rest ∧ s.host.delay ≠ 0 ∧ turn s = .host a rest)
    ∨ (s.engine = .dispatching ∧ turn s = .engine (.icmpKey (upperHalf s.ic.w0))) := by
  unfold turn
  split
  · rename_i h
    exact .inr (.inr (.inr (.inr ⟨h, rfl⟩)))
  · rename_i h
    split
    · exact .inl ⟨h, ‹_›, rfl⟩
    · exact .inr (.inl ⟨_, _, h, ‹_›, rfl⟩)
  · rename_i v h
    split
    · exact .inr (.inr (.inl ⟨v, h, .inl ‹_›, rfl⟩))
    · rename_i a rest hs
      split
      · exact .inr (.inr (.inl ⟨v, h, .inr ‹_›, rfl⟩))
      · exact .inr (.inr (.inr (.inl ⟨v, a, rest, h, hs, ‹_›, rfl⟩)))

end Sys2Proof.Machine
end

