-- ==== Sys2Proof/Laws/Memory.lean ====
section
/-! SUPPORT. The buffer's list: read after write, and that the one writing operation keeps the canonical form. -/

namespace Sys2Proof.Machine

@[simp] theorem Memory.find_nil (i : Nat) : Memory.find [] i = none := rfl

/-- Read after write: the index written holds the byte, every other index what it held. -/
theorem Memory.find_set (m : Memory) (i j : Nat) (b : Byte) :
    Memory.find (Memory.set m i b) j = if j = i then some b else Memory.find m j := by
  induction m with
  | nil => simp only [Memory.set, Memory.find, eq_comm]
  | cons c m ih =>
    obtain ⟨a, d⟩ := c
    simp only [Memory.set]
    split
    · simp only [Memory.find, eq_comm]
    · split
      · subst_vars
        simp only [Memory.find]
        by_cases h : a = j
        · simp [h]
        · simp [h, Ne.symm h]
      · simp only [Memory.find, ih]
        by_cases h : a = j
        · subst h
          rw [if_pos rfl, if_neg (by omega), if_pos rfl]
        · simp [h]

/-- Every index listed after a write is the index written or was listed before. -/
theorem Memory.mem_set {m : Memory} {i : Nat} {b : Byte} {c : Host.Cell} (h : c ∈ Memory.set m i b) :
    c = (i, b) ∨ c ∈ m := by
  induction m with
  | nil => simpa [Memory.set] using h
  | cons d m ih =>
    obtain ⟨a, e⟩ := d
    simp only [Memory.set] at h
    split at h
    · simpa using h
    · split at h
      · simp only [List.mem_cons] at h ⊢
        tauto
      · simp only [List.mem_cons] at h ⊢
        rcases h with h | h
        · exact .inr (.inl h)
        · rcases ih h with h | h
          · exact .inl h
          · exact .inr (.inr h)

/-- A write keeps the indices strictly rising. -/
theorem Memory.set_rising {m : Memory} (h : m.Pairwise (fun x y => x.1 < y.1)) (i : Nat) (b : Byte) :
    (Memory.set m i b).Pairwise (fun x y => x.1 < y.1) := by
  induction m with
  | nil => simp [Memory.set]
  | cons d m ih =>
    obtain ⟨a, e⟩ := d
    rw [List.pairwise_cons] at h
    simp only [Memory.set]
    split
    · rename_i hlt
      refine List.pairwise_cons.2 ⟨fun c hc => ?_, List.pairwise_cons.2 h⟩
      rcases List.mem_cons.1 hc with rfl | hc
      · exact hlt
      · exact Nat.lt_trans hlt (h.1 c hc)
    · split
      · subst_vars
        exact List.pairwise_cons.2 h
      · refine List.pairwise_cons.2 ⟨fun c hc => ?_, ih h.2⟩
        rcases Memory.mem_set hc with rfl | hc
        · show a < i
          omega
        · exact h.1 c hc

/-- A write inside the buffer keeps the canonical form. -/
theorem Memory.set_wf {size : Nat} {m : Memory} (h : Memory.wf size m) {i : Nat} (hi : i < size) (b : Byte) :
    Memory.wf size (Memory.set m i b) := by
  refine ⟨Memory.set_rising h.1 i b, fun c hc => ?_⟩
  rcases Memory.mem_set hc with rfl | hc
  · exact ⟨hi, by simp [Memory.unlisted]⟩
  · exact h.2 c hc

/-- The buffer right after reset has the canonical form. -/
theorem Memory.reset_wf : Memory.wf State.reset.pbufSize State.reset.pbuf :=
  ⟨List.Pairwise.nil, fun _ h => by cases h⟩

/-- The reset event keeps the canonical form. -/
theorem Memory.resetEvent_wf {s : State} (h : Memory.wf s.pbufSize s.pbuf) (p : Bool) :
    Memory.wf (s.resetEvent p).pbufSize (s.resetEvent p).pbuf := by
  cases p
  · exact h
  · exact ⟨List.Pairwise.nil, fun _ h => by cases h⟩

/-- `PBUF[j]` after `PBUF[i] <- b`. -/
theorem State.setByte_byte (i : Nat) (b : Byte) (s : State) (j : Nat) :
    (s.setByte i b).byte j = if j = i then b else s.byte j := by
  simp only [State.byte, State.setByte, Memory.find_set]
  split <;> rfl

/-- A byte depends on the buffer's list and the power-on alone. -/
theorem State.byte_congr {s t : State} (hm : s.pbuf = t.pbuf) (hp : s.powerCycles = t.powerCycles) : s.byte = t.byte := by
  funext i
  simp [State.byte, hm, hp]

end Sys2Proof.Machine
end

