-- ==== Sys2Proof/Laws/Parse.lean ====
section
/-! SUPPORT. What each shared part of a parse can do, said once: `ip_parse`, the common header of `icmp_parse`, `emb_parse`, the
class rules and the end of a classified command. -/

namespace Sys2Proof.Machine

/-- All that `ip_parse` can do (42_ipv4_parse.md R191, R192). -/
theorem ipParse_cases (s : State) :
    (s.pktLen.toNat < 20 ∧ ipParse s = .raised .tooShort s)
    ∨ (20 ≤ s.pktLen.toNat ∧ highNibble (s.byte 0) ≠ 4 ∧ ipParse s = .raised .badVersion { s with ip := s.ipGroupOf })
    ∨ (20 ≤ s.pktLen.toNat ∧ highNibble (s.byte 0) = 4 ∧ (lowNibble (s.byte 0)).toNat < 5
        ∧ ipParse s = .raised .badIhl { s with ip := s.ipGroupOf })
    ∨ (20 ≤ s.pktLen.toNat ∧ highNibble (s.byte 0) = 4 ∧ 5 ≤ (lowNibble (s.byte 0)).toNat
        ∧ ipParse s = .value ⟨headerBytes (s.byte 0), s.effectiveLength, s.byte 9⟩
            (State.warnLenMismatch (decide ((s.be16 2).toNat ≠ s.pktLen.toNat)) { s with ip := s.ipGroupOf })) := by
  unfold ipParse ipMinHdr ipVersion ihlMin
  split
  · exact .inl ⟨‹_›, rfl⟩
  · split
    · exact .inr (.inl ⟨by omega, ‹_›, rfl⟩)
    · split
      · exact .inr (.inr (.inl ⟨by omega, not_not.1 ‹_›, ‹_›, rfl⟩))
      · exact .inr (.inr (.inr ⟨by omega, not_not.1 ‹_›, by omega, rfl⟩))

/-- All that the start of `icmp_parse` can do (43_icmp_classify.md R201, R202). -/
theorem icmpHeader_cases (off lim : Nat) (s : State) :
    ((lim : Int) - off < 8 ∧ icmpHeader off lim s = .raised .icmpShort s)
    ∨ (off + 8 ≤ lim ∧ icmpHeader off lim s = .value ()
        { s with
          engine := .dispatching
          ic := { s.ic with
            off := BitVec.ofNat 16 off, len := BitVec.ofNat 16 (lim - off), w0 := s.be32 off, w1 := s.be32 (off + 4) } }) := by
  unfold icmpHeader remaining icmpMinHdr
  split
  · exact .inl ⟨‹_›, rfl⟩
  · refine .inr ⟨by omega, ?_⟩
    have h : ((lim : Int) - (off : Int)).toNat = lim - off := by omega
    rw [h]

/-- All that `emb_parse` can do (44_embedded_datagram.md R251, R252). -/
theorem embParse_cases (e lim : Nat) (s : State) :
    (lim < e + 20 ∧ embParse e lim s = s.warnEmbBad)
    ∨ (e + 20 ≤ lim ∧ (highNibble (s.byte e) ≠ 4 ∨ (lowNibble (s.byte e)).toNat < 5) ∧ embParse e lim s = s.warnEmbBad)
    ∨ (e + 20 ≤ lim ∧ highNibble (s.byte e) = 4 ∧ 5 ≤ (lowNibble (s.byte e)).toNat
        ∧ ((hasPorts (s.byte (e + 9)) = false ∧ embParse e lim s = { s with em := s.emHeaderOf e })
          ∨ (hasPorts (s.byte (e + 9)) = true ∧ lim < e + headerBytes (s.byte e) + 4
              ∧ embParse e lim s = State.warnEmbBad { s with em := s.emHeaderOf e })
          ∨ (hasPorts (s.byte (e + 9)) = true ∧ e + headerBytes (s.byte e) + 4 ≤ lim
              ∧ embParse e lim s = State.withPorts e (headerBytes (s.byte e)) { s with em := s.emHeaderOf e }))) := by
  unfold embParse remaining ipMinHdr ipVersion ihlMin portBytes
  split
  · exact .inl ⟨by omega, rfl⟩
  · split
    · exact .inr (.inl ⟨by omega, ‹_›, rfl⟩)
    · rename_i h
      have h4 : highNibble (s.byte e) = 4 := by by_contra hc; exact h (.inl hc)
      have h5 : 5 ≤ (lowNibble (s.byte e)).toNat := by by_contra hc; exact h (.inr (by omega))
      refine .inr (.inr ⟨by omega, h4, h5, ?_⟩)
      simp only
      split
      · split
        · exact .inr (.inr ⟨‹_›, ‹_›, rfl⟩)
        · exact .inr (.inl ⟨‹_›, by omega, rfl⟩)
      · exact .inl ⟨Bool.eq_false_iff.2 ‹_›, rfl⟩

/-- The header length of a header with IHL at least 5 is 20 to 60. -/
theorem headerBytes_range {b : Byte} (h : 5 ≤ (lowNibble b).toNat) : 20 ≤ headerBytes b ∧ headerBytes b ≤ 60 := by
  have := (lowNibble b).isLt
  unfold headerBytes
  omega

/-- What `emb_parse` leaves unchanged: all but the EM group and `W_EMB_BAD` (44_embedded_datagram.md R251). -/
structure EmbFrame (s t : State) : Prop where
  status : t.status = s.status ∨ t.status = { s.status with wEmbBad := true }
  rest : { t with status := s.status, em := s.em } = s

theorem embParse_frame (e lim : Nat) (s : State) : EmbFrame s (embParse e lim s) := by
  rcases embParse_cases e lim s with h | h | ⟨-, -, -, h | h | h⟩
  · rw [h.2]; exact ⟨.inr rfl, rfl⟩
  · rw [h.2.2]; exact ⟨.inr rfl, rfl⟩
  · rw [h.2]; exact ⟨.inl rfl, rfl⟩
  · rw [h.2.2]; exact ⟨.inr rfl, rfl⟩
  · rw [h.2.2]; exact ⟨.inl rfl, rfl⟩

/-- What a class rule leaves unchanged: the common header and `IC_CLASS`, every register outside the IC and EM groups, and every
flag but `W_EMB_BAD` and `W_FIELD_TRUNC` (43_icmp_classify.md R203). -/
structure ClassFrame (s t : State) : Prop where
  rest : { t with status := s.status, ic := s.ic, em := s.em } = s
  header : t.ic.off = s.ic.off ∧ t.ic.len = s.ic.len ∧ t.ic.w0 = s.ic.w0 ∧ t.ic.w1 = s.ic.w1
    ∧ t.ic.cls = s.ic.cls ∧ t.ic.codeKnown = s.ic.codeKnown
  status : { t.status with wEmbBad := s.status.wEmbBad, wFieldTrunc := s.status.wFieldTrunc } = s.status

theorem ClassFrame.refl (s : State) : ClassFrame s s := ⟨rfl, ⟨rfl, rfl, rfl, rfl, rfl, rfl⟩, rfl⟩

/-- A change of IC fields other than the header and `IC_CLASS` is inside a class rule's frame. -/
theorem ClassFrame.ofIc (s : State) (g : IcGroup)
    (h : g.off = s.ic.off ∧ g.len = s.ic.len ∧ g.w0 = s.ic.w0 ∧ g.w1 = s.ic.w1 ∧ g.cls = s.ic.cls
      ∧ g.codeKnown = s.ic.codeKnown) : ClassFrame s { s with ic := g } := ⟨rfl, h, rfl⟩

theorem ClassFrame.thenEmb {s t : State} (h : ClassFrame s t) : ClassFrame s t.parseEmbedded := by
  obtain ⟨hst, hr⟩ := embParse_frame (t.ic.off.toNat + icmpMinHdr) t.ic.limit t
  have hic : t.parseEmbedded.ic = t.ic := (State.mk.injEq .. ▸ hr).2.2.2.2.2.2.1
  refine ⟨?_, ?_, ?_⟩
  · have h1 := h.rest
    have h2 : { t.parseEmbedded with status := s.status, ic := s.ic, em := s.em }
        = { ({ t.parseEmbedded with status := t.status, em := t.em } : State) with status := s.status, ic := s.ic, em := s.em } :=
      rfl
    rw [h2, show ({ t.parseEmbedded with status := t.status, em := t.em } : State) = t from hr]
    exact h1
  · rw [hic]; exact h.header
  · have h1 := h.status
    have : t.parseEmbedded.status = t.status ∨ t.parseEmbedded.status = { t.status with wEmbBad := true } := hst
    rcases this with h2 | h2 <;> rw [h2] <;> exact h1

theorem classRule_frame (c : IcmpClass) (code : Byte) (s : State) : ClassFrame s (classRule c code s).1 := by
  cases c with
  | echoReply =>
    simp only [classRule, ruleEchoReply]
    split <;> exact .ofIc s _ ⟨rfl, rfl, rfl, rfl, rfl, rfl⟩
  | echoRequest => exact .ofIc s _ ⟨rfl, rfl, rfl, rfl, rfl, rfl⟩
  | destinationUnreachable =>
    simp only [classRule, ruleDestinationUnreachable]
    split
    · exact (ClassFrame.ofIc s { s.ic with mtu := lowerHalf s.ic.w1 } ⟨rfl, rfl, rfl, rfl, rfl, rfl⟩).thenEmb
    · exact (ClassFrame.refl s).thenEmb
  | sourceQuench => exact (ClassFrame.refl s).thenEmb
  | redirect => exact (ClassFrame.ofIc s { s.ic with gateway := s.ic.w1 } ⟨rfl, rfl, rfl, rfl, rfl, rfl⟩).thenEmb
  | routerAdvertisement => exact .ofIc s _ ⟨rfl, rfl, rfl, rfl, rfl, rfl⟩
  | timeExceeded => exact (ClassFrame.refl s).thenEmb
  | parameterProblem => exact (ClassFrame.ofIc s { s.ic with pointer := byte3 s.ic.w1 } ⟨rfl, rfl, rfl, rfl, rfl, rfl⟩).thenEmb
  | addressMaskReply =>
    simp only [classRule, ruleAddressMaskReply]
    split
    · exact .ofIc s _ ⟨rfl, rfl, rfl, rfl, rfl, rfl⟩
    · exact ⟨rfl, ⟨rfl, rfl, rfl, rfl, rfl, rfl⟩, rfl⟩
  | noMessage | routerSolicitation | timestamp | timestampReply | infoRequest | infoReply | addressMaskRequest | unknown =>
    exact .refl s

/-- A class rule ends `OK`, but for an echo reply whose identifier is not the pairing constant (43_icmp_classify.md R203,
R211). -/
theorem classRule_outcome (c : IcmpClass) (code : Byte) (s : State) :
    (classRule c code s).2 = if c = .echoReply ∧ upperHalf s.ic.w1 ≠ pairId then .foreign else .ok := by
  cases c <;> simp [classRule, ruleEchoReply, ruleEchoRequest, ruleDestinationUnreachable, ruleSourceQuench, ruleRedirect,
    ruleRouterAdvertisement, ruleTimeExceeded, ruleParameterProblem, ruleAddressMaskReply] <;> split <;> rfl

/-- The classes that are not error-reporting leave the EM group and `W_EMB_BAD` as they were (43_icmp_classify.md R227). -/
theorem classRule_em {c : IcmpClass} (h : errorReporting c = false) (code : Byte) (s : State) :
    (classRule c code s).1.em = s.em ∧ (classRule c code s).1.status.wEmbBad = s.status.wEmbBad := by
  cases c <;> simp_all [errorReporting, classRule, ruleEchoReply, ruleEchoRequest, ruleRouterAdvertisement, ruleAddressMaskReply]
    <;> split <;> simp

/-- What the end of a classified command leaves unchanged, and what it always writes. -/
structure EndFrame (c : IcmpClass) (known : Bool) (s t : State) : Prop where
  rest : { t with status := s.status, ic := s.ic, em := s.em, engine := s.engine } = s
  engine : t.engine = .idle
  header : t.ic.off = s.ic.off ∧ t.ic.len = s.ic.len ∧ t.ic.w0 = s.ic.w0 ∧ t.ic.w1 = s.ic.w1
    ∧ t.ic.cls = c ∧ t.ic.codeKnown = known
  done : t.status.done = true ∧ t.status.err = none ∧ t.status.wLenMismatch = s.status.wLenMismatch
    ∧ t.status.sBusyWr = s.status.sBusyWr
  warnings : t.status.wUnkType = (decide (c = .unknown) || s.status.wUnkType)
    ∧ t.status.wUnkCode = (!known || s.status.wUnkCode)
  outcome : t.status.outcome = if c = .echoReply ∧ upperHalf s.ic.w1 ≠ pairId then .foreign else .ok

theorem runClass_frame (c : IcmpClass) (code : Byte) (known : Bool) (s : State) :
    EndFrame c known s (runClass c code known s) := by
  have hf := classRule_frame c code (s.classified c known)
  have ho := classRule_outcome c code (s.classified c known)
  have hs := hf.status
  have hh := hf.header
  have hr := hf.rest
  simp only [State.classified_ic] at hh ho
  simp only [State.classified_status, Status.mk.injEq] at hs
  refine ⟨?_, rfl, by simpa [runClass] using hh, by simp [runClass, hs], by simp [runClass, hs], by simp [runClass, ho]⟩
  have h2 : ({ runClass c code known s with status := s.status, ic := s.ic, em := s.em, engine := s.engine } : State)
      = { ({ (classRule c code (s.classified c known)).1 with
              status := (s.classified c known).status, ic := (s.classified c known).ic, em := (s.classified c known).em } : State)
          with status := s.status, ic := s.ic, em := s.em, engine := s.engine } := rfl
  rw [h2, hr]
  simp only [State.classified, State.warnUnkCode, State.warnUnkType]
  cases known <;> cases c <;> rfl

end Sys2Proof.Machine
end

