-- ==== Sys2Proof/Laws/PerInstr.lean ====
section
/-! SUPPORT. Statements about every instruction, one lemma for each constructor. -/

namespace Sys2Proof.Laws.EncodingMatchesRow

/-- `match` and `mask` of an instruction's row in spec/opcode_table.json, and whether the row is a command's. -/
def rowOf (i : Instr) : Nat × Nat × Bool :=
  match i with
  | .nop => (0x00000000, 0xFFFFFFFF, true)
  | .csum => (0x00000001, 0xFFFFFFFF, true)
  | .parseIp => (0x00000002, 0xFFFFFFFF, true)
  | .parseIcmp => (0x00000003, 0xFFFFFFFF, true)
  | .classify => (0x00000004, 0xFFFFFFFF, true)
  | .clear => (0x00000005, 0xFFFFFFFF, true)
  | .icmpDestUnreachNetwork => (0x0300, 0xFFFF, false)
  | .icmpDestUnreachHost => (0x0301, 0xFFFF, false)
  | .icmpDestUnreachProtocol => (0x0302, 0xFFFF, false)
  | .icmpDestUnreachPort => (0x0303, 0xFFFF, false)
  | .icmpDestUnreachNeedsFragment => (0x0304, 0xFFFF, false)
  | .icmpDestUnreachSourceRouteFailed => (0x0305, 0xFFFF, false)
  | .icmpRedirectNetwork => (0x0500, 0xFFFF, false)
  | .icmpRedirectHost => (0x0501, 0xFFFF, false)
  | .icmpRedirectTosNetwork => (0x0502, 0xFFFF, false)
  | .icmpRedirectTosHost => (0x0503, 0xFFFF, false)
  | .icmpTimeExceededInTransit => (0x0B00, 0xFFFF, false)
  | .icmpTimeExceededReassembly => (0x0B01, 0xFFFF, false)
  | .icmpEchoReply _ => (0x0000, 0xFF00, false)
  | .icmpEchoRequest _ => (0x0800, 0xFF00, false)
  | .icmpDestinationUnreachable _ => (0x0300, 0xFF00, false)
  | .icmpSourceQuench _ => (0x0400, 0xFF00, false)
  | .icmpRedirect _ => (0x0500, 0xFF00, false)
  | .icmpRouterAdvertisement _ => (0x0900, 0xFF00, false)
  | .icmpRouterSolicitation _ => (0x0A00, 0xFF00, false)
  | .icmpTimeExceeded _ => (0x0B00, 0xFF00, false)
  | .icmpParameterProblem _ => (0x0C00, 0xFF00, false)
  | .icmpTimestamp _ => (0x0D00, 0xFF00, false)
  | .icmpTimestampReply _ => (0x0E00, 0xFF00, false)
  | .icmpInfoRequest _ => (0x0F00, 0xFF00, false)
  | .icmpInfoReply _ => (0x1000, 0xFF00, false)
  | .icmpAddressMaskRequest _ => (0x1100, 0xFF00, false)
  | .icmpAddressMaskReply _ => (0x1200, 0xFF00, false)
  | .icmpUnknown _ _ => (0x0000, 0x0000, false)

/-- The word of a term as a number. -/
def wordOf (w : TableWord) : Nat × Bool :=
  match w with
  | .command v => (v.toNat, true)
  | .icmpKey k => (k.toNat, false)

/-- The encoding of the instruction matches its row: `word AND mask = match`, in the row's own decoder. -/
def Statement (i : Instr) : Prop :=
  (wordOf (encode i)).1 &&& (rowOf i).2.1 = (rowOf i).1 ∧ (wordOf (encode i)).2 = (rowOf i).2.2

/-- The type byte of a key is its bits 15:8. -/
theorem key_type_bits (t code : Byte) : (icmpKeyOf t code).toNat &&& 0xFF00 = t.toNat * 256 := by
  rw [icmpKeyOf_toNat]
  have h : ∀ n, n < 65536 → n &&& 0xFF00 = n / 256 * 256 := by
    intro n hn
    apply Nat.eq_of_testBit_eq
    intro i
    rw [Nat.testBit_and, show n / 256 * 256 = (n / 2 ^ 8) * 2 ^ 8 from rfl, Nat.testBit_mul_two_pow, Nat.testBit_div_two_pow,
      show (0xFF00 : Nat) = (2 ^ 8 - 1) * 2 ^ 8 from rfl, Nat.testBit_mul_two_pow, Nat.testBit_two_pow_sub_one]
    by_cases h8 : 8 ≤ i
    · simp only [h8, decide_true, Bool.true_and, Nat.sub_add_cancel h8]
      by_cases h16 : i - 8 < 8
      · simp [h16]
      · have : n.testBit i = false := Nat.testBit_lt_two_pow (Nat.lt_of_lt_of_le hn (by
          rw [show 65536 = 2 ^ 16 from rfl]; exact Nat.pow_le_pow_right (by decide) (by omega)))
        simp [this]
    · simp [h8]
  have := t.isLt
  have := code.isLt
  rw [h _ (by omega)]
  omega

theorem nop : Statement .nop := ⟨rfl, rfl⟩
theorem csum : Statement .csum := ⟨rfl, rfl⟩
theorem parseIp : Statement .parseIp := ⟨rfl, rfl⟩
theorem parseIcmp : Statement .parseIcmp := ⟨rfl, rfl⟩
theorem classify : Statement .classify := ⟨rfl, rfl⟩
theorem clear : Statement .clear := ⟨rfl, rfl⟩
theorem icmpDestUnreachNetwork : Statement .icmpDestUnreachNetwork := ⟨rfl, rfl⟩
theorem icmpDestUnreachHost : Statement .icmpDestUnreachHost := ⟨rfl, rfl⟩
theorem icmpDestUnreachProtocol : Statement .icmpDestUnreachProtocol := ⟨rfl, rfl⟩
theorem icmpDestUnreachPort : Statement .icmpDestUnreachPort := ⟨rfl, rfl⟩
theorem icmpDestUnreachNeedsFragment : Statement .icmpDestUnreachNeedsFragment := ⟨rfl, rfl⟩
theorem icmpDestUnreachSourceRouteFailed : Statement .icmpDestUnreachSourceRouteFailed := ⟨rfl, rfl⟩
theorem icmpRedirectNetwork : Statement .icmpRedirectNetwork := ⟨rfl, rfl⟩
theorem icmpRedirectHost : Statement .icmpRedirectHost := ⟨rfl, rfl⟩
theorem icmpRedirectTosNetwork : Statement .icmpRedirectTosNetwork := ⟨rfl, rfl⟩
theorem icmpRedirectTosHost : Statement .icmpRedirectTosHost := ⟨rfl, rfl⟩
theorem icmpTimeExceededInTransit : Statement .icmpTimeExceededInTransit := ⟨rfl, rfl⟩
theorem icmpTimeExceededReassembly : Statement .icmpTimeExceededReassembly := ⟨rfl, rfl⟩
theorem icmpEchoReply (code : Byte) : Statement (.icmpEchoReply code) := ⟨key_type_bits 0 code, rfl⟩
theorem icmpEchoRequest (code : Byte) : Statement (.icmpEchoRequest code) := ⟨key_type_bits 8 code, rfl⟩
theorem icmpDestinationUnreachable (code : Byte) : Statement (.icmpDestinationUnreachable code) := ⟨key_type_bits 3 code, rfl⟩
theorem icmpSourceQuench (code : Byte) : Statement (.icmpSourceQuench code) := ⟨key_type_bits 4 code, rfl⟩
theorem icmpRedirect (code : Byte) : Statement (.icmpRedirect code) := ⟨key_type_bits 5 code, rfl⟩
theorem icmpRouterAdvertisement (code : Byte) : Statement (.icmpRouterAdvertisement code) := ⟨key_type_bits 9 code, rfl⟩
theorem icmpRouterSolicitation (code : Byte) : Statement (.icmpRouterSolicitation code) := ⟨key_type_bits 10 code, rfl⟩
theorem icmpTimeExceeded (code : Byte) : Statement (.icmpTimeExceeded code) := ⟨key_type_bits 11 code, rfl⟩
theorem icmpParameterProblem (code : Byte) : Statement (.icmpParameterProblem code) := ⟨key_type_bits 12 code, rfl⟩
theorem icmpTimestamp (code : Byte) : Statement (.icmpTimestamp code) := ⟨key_type_bits 13 code, rfl⟩
theorem icmpTimestampReply (code : Byte) : Statement (.icmpTimestampReply code) := ⟨key_type_bits 14 code, rfl⟩
theorem icmpInfoRequest (code : Byte) : Statement (.icmpInfoRequest code) := ⟨key_type_bits 15 code, rfl⟩
theorem icmpInfoReply (code : Byte) : Statement (.icmpInfoReply code) := ⟨key_type_bits 16 code, rfl⟩
theorem icmpAddressMaskRequest (code : Byte) : Statement (.icmpAddressMaskRequest code) := ⟨key_type_bits 17 code, rfl⟩
theorem icmpAddressMaskReply (code : Byte) : Statement (.icmpAddressMaskReply code) := ⟨key_type_bits 18 code, rfl⟩
theorem icmpUnknown (type code : Byte) : Statement (.icmpUnknown type code) := ⟨Nat.and_zero _, rfl⟩

end Sys2Proof.Laws.EncodingMatchesRow
end

