-- ==== Sys2Proof/Machine/HostProgram.lean ====
section
/-! DEFINITION. The host notation of 30_encoding.md R130 and R131: the lines of a host program and the transactions each stands
for. It is how a program is written into the host's script; no step reads it. -/

namespace Sys2Proof.Machine

/-- One line: a transaction (R130; a register by its offset) or a pseudo-instruction (R131). -/
inductive HostLine where
  | wr32 (off : Nat) (v : Word)
  | rd32 (off : Nat)
  | wr8 (i : Nat) (b : Byte)
  | rd8 (i : Nat)
  | load (i : Nat) (bytes : List Byte)
  | setLen (n : Word)
  | nop
  | csum (off len : Word)
  | parseIp
  | parseIcmp (off len : Word)
  | classify
  | clear
  | wait
  | putCsum (i : Nat)
  deriving DecidableEq, Repr

/-- `WR8 i, b0; WR8 i+1, b1; ...` (R131, `LOAD`). -/
def loadActions (i : Nat) : List Byte → List HostAction
  | [] => []
  | b :: bytes => .wr8 i b :: loadActions (i + 1) bytes

/-- The expansion of a line (R131). -/
def HostLine.actions (l : HostLine) : List HostAction :=
  match l with
  | .wr32 off v => [.wr32 off v]
  | .rd32 off => [.rd32 off]
  | .wr8 i b => [.wr8 i b]
  | .rd8 i => [.rd8 i]
  | .load i bytes => loadActions i bytes
  | .setLen n => [.wr32 0x08 n]
  | .nop => [.wr32 0x00 0x00]
  | .csum off len => [.wr32 0x0C off, .wr32 0x10 len, .wr32 0x00 0x01]
  | .parseIp => [.wr32 0x00 0x02]
  | .parseIcmp off len => [.wr32 0x0C off, .wr32 0x10 len, .wr32 0x00 0x03]
  | .classify => [.wr32 0x00 0x04]
  | .clear => [.wr32 0x00 0x05]
  | .wait => [.wait]
  | .putCsum i => [.putCsum i]

/-- The script of a host program. -/
def hostProgram (lines : List HostLine) : List HostAction := lines.flatMap HostLine.actions

end Sys2Proof.Machine
end

