-- ==== Sys2Proof/Tests/Slice0.lean ====
section
/-! SUPPORT. The model's own tests. Part 1: the terms that WellFormed refuses. Part 2: each constructor's word, written out from
the tables of 30_encoding.md. Part 3: one step on a small state, against the values of 95_test_vectors.md or the worked
examples of the rules. Part 4: for each statement that has hypotheses, states and operands that meet them, clause by clause, at
the boundary values. -/

namespace Sys2Proof.Tests

open Sys2Proof Sys2Proof.Machine

/-! ## Part 1: WellFormed (30_encoding.md R121 to R124) -/

theorem test_wellFormed_refuses_type3_code5 : (Instr.icmpDestinationUnreachable 5).WellFormed = false := by decide
theorem test_wellFormed_refuses_type5_code3 : (Instr.icmpRedirect 3).WellFormed = false := by decide
theorem test_wellFormed_refuses_type11_code1 : (Instr.icmpTimeExceeded 1).WellFormed = false := by decide
theorem test_wellFormed_refuses_assigned_type : (Instr.icmpUnknown 18 0).WellFormed = false := by decide

/-! ## Part 2: decoding (30_encoding.md R103, R120 to R124): a command word is its opcode in bits 7:0; a key is type, then code -/

theorem test_decode_nop : decodeTableWord 32 0b00000000000000000000000000000000 = some .nop := by decide
theorem test_decode_csum : decodeTableWord 32 0b00000000000000000000000000000001 = some .csum := by decide
theorem test_decode_parseIp : decodeTableWord 32 0b00000000000000000000000000000010 = some .parseIp := by decide
theorem test_decode_parseIcmp : decodeTableWord 32 0b00000000000000000000000000000011 = some .parseIcmp := by decide
theorem test_decode_classify : decodeTableWord 32 0b00000000000000000000000000000100 = some .classify := by decide
theorem test_decode_clear : decodeTableWord 32 0b00000000000000000000000000000101 = some .clear := by decide
theorem test_decode_icmpDestUnreachNetwork :
    decodeTableWord 16 0b0000001100000000 = some .icmpDestUnreachNetwork := by decide
theorem test_decode_icmpDestUnreachHost :
    decodeTableWord 16 0b0000001100000001 = some .icmpDestUnreachHost := by decide
theorem test_decode_icmpDestUnreachProtocol :
    decodeTableWord 16 0b0000001100000010 = some .icmpDestUnreachProtocol := by decide
theorem test_decode_icmpDestUnreachPort :
    decodeTableWord 16 0b0000001100000011 = some .icmpDestUnreachPort := by decide
theorem test_decode_icmpDestUnreachNeedsFragment :
    decodeTableWord 16 0b0000001100000100 = some .icmpDestUnreachNeedsFragment := by decide
theorem test_decode_icmpDestUnreachSourceRouteFailed :
    decodeTableWord 16 0b0000001100000101 = some .icmpDestUnreachSourceRouteFailed := by decide
theorem test_decode_icmpRedirectNetwork :
    decodeTableWord 16 0b0000010100000000 = some .icmpRedirectNetwork := by decide
theorem test_decode_icmpRedirectHost :
    decodeTableWord 16 0b0000010100000001 = some .icmpRedirectHost := by decide
theorem test_decode_icmpRedirectTosNetwork :
    decodeTableWord 16 0b0000010100000010 = some .icmpRedirectTosNetwork := by decide
theorem test_decode_icmpRedirectTosHost :
    decodeTableWord 16 0b0000010100000011 = some .icmpRedirectTosHost := by decide
theorem test_decode_icmpTimeExceededInTransit :
    decodeTableWord 16 0b0000101100000000 = some .icmpTimeExceededInTransit := by decide
theorem test_decode_icmpTimeExceededReassembly :
    decodeTableWord 16 0b0000101100000001 = some .icmpTimeExceededReassembly := by decide
theorem test_decode_icmpEchoReply :
    decodeTableWord 16 0b0000000000000101 = some (.icmpEchoReply 5) := by decide
theorem test_decode_icmpEchoRequest :
    decodeTableWord 16 0b0000100011111111 = some (.icmpEchoRequest 255) := by decide
theorem test_decode_icmpDestinationUnreachable :
    decodeTableWord 16 0b0000001100001001 = some (.icmpDestinationUnreachable 9) := by decide
theorem test_decode_icmpSourceQuench :
    decodeTableWord 16 0b0000010000000001 = some (.icmpSourceQuench 1) := by decide
theorem test_decode_icmpRedirect :
    decodeTableWord 16 0b0000010100000100 = some (.icmpRedirect 4) := by decide
theorem test_decode_icmpRouterAdvertisement :
    decodeTableWord 16 0b0000100100000000 = some (.icmpRouterAdvertisement 0) := by decide
theorem test_decode_icmpRouterSolicitation :
    decodeTableWord 16 0b0000101000000010 = some (.icmpRouterSolicitation 2) := by decide
theorem test_decode_icmpTimeExceeded :
    decodeTableWord 16 0b0000101100000010 = some (.icmpTimeExceeded 2) := by decide
theorem test_decode_icmpParameterProblem :
    decodeTableWord 16 0b0000110000000000 = some (.icmpParameterProblem 0) := by decide
theorem test_decode_icmpTimestamp :
    decodeTableWord 16 0b0000110101000000 = some (.icmpTimestamp 64) := by decide
theorem test_decode_icmpTimestampReply :
    decodeTableWord 16 0b0000111000000000 = some (.icmpTimestampReply 0) := by decide
theorem test_decode_icmpInfoRequest :
    decodeTableWord 16 0b0000111100000000 = some (.icmpInfoRequest 0) := by decide
theorem test_decode_icmpInfoReply :
    decodeTableWord 16 0b0001000000000000 = some (.icmpInfoReply 0) := by decide
theorem test_decode_icmpAddressMaskRequest :
    decodeTableWord 16 0b0001000100000000 = some (.icmpAddressMaskRequest 0) := by decide
theorem test_decode_icmpAddressMaskReply :
    decodeTableWord 16 0b0001001010000000 = some (.icmpAddressMaskReply 128) := by decide
theorem test_decode_icmpUnknown :
    decodeTableWord 16 0b1111111100000111 = some (.icmpUnknown 255 7) := by decide
theorem test_decode_refuses_opcode6 : decodeCommand 0x00000006 = .error .reservedOpcode := by decide
theorem test_decode_refuses_upper_bits : decodeCommand 0x00000101 = .error .reservedUpperBits := by decide

/-! ## Part 3: one step -/

/-- The bytes at their indices from 0 on. -/
def cells (bytes : List Byte) : Memory := bytes.zipIdx.map (fun p => (p.2, p.1))

/-- A reset state with a packet loaded and a command word pending. -/
def loaded (word : Word) (bytes : List Byte) : State :=
  { pbuf := cells bytes, pktLen := BitVec.ofNat 16 bytes.length, engine := .holding word }

/-- The same with a range in `ARG_OFF` and `ARG_LEN`. -/
def ranged (word : Word) (bytes : List Byte) (off len : Half) : State :=
  { loaded word bytes with argOff := off, argLen := len }

/-- A message of 8 bytes at index 0 at the point where its row is selected, the IC and EM groups otherwise zero. -/
def message (w0 w1 : Word) : State := { engine := .dispatching, pktLen := 8, ic := { len := 8, w0 := w0, w1 := w1 } }

/-- The registers at some offsets after a step. -/
def shows (o : Outcome) (offs : List Nat) : Option (List Word) :=
  match o with
  | .next s => some (offs.map (fun a => regRead a s))
  | .fault _ => none
  | .refused _ => none

/-- The bytes of vector V1. -/
def rfc1071 : List Byte := [0x00, 0x01, 0xF2, 0x03, 0xF4, 0xF5, 0xF6, 0xF7]

/-- The twenty bytes of vector V18. -/
def tcpHeader : List Byte :=
  [0x45, 0x00, 0x00, 0x14, 0x12, 0x34, 0x00, 0x00, 0x78, 0x06, 0xAC, 0xAC, 0xC0, 0x00, 0x02, 0x01, 0xC0, 0x00, 0x02, 0x02]

/-- The packet of vector V24: an echo request with an empty payload. -/
def echoRequest : List Byte :=
  [0x45, 0x00, 0x00, 0x1C, 0x12, 0x34, 0x00, 0x00, 0x78, 0x01, 0xAC, 0xA9, 0xC0, 0x00, 0x02, 0x01, 0xC0, 0x00, 0x02, 0x02,
   0x08, 0x00, 0xB5, 0xBC, 0x42, 0x42, 0x00, 0x01]

/-- The first 52 bytes of vector V30: an unreachable host, the embedded header and its two ports. -/
def hostUnreachable : List Byte :=
  [0x45, 0x00, 0x00, 0x34, 0x12, 0x34, 0x00, 0x00, 0x3C, 0x01, 0x80, 0x59, 0xC6, 0x33, 0x64, 0x07, 0xC0, 0x00, 0x02, 0x01,
   0x03, 0x01, 0xEB, 0x51, 0x00, 0x00, 0x00, 0x00, 0x45, 0x00, 0x00, 0x28, 0xBE, 0xEF, 0x00, 0x00, 0x40, 0x06, 0xBD, 0xD5,
   0xC0, 0x00, 0x02, 0x01, 0xCB, 0x00, 0x71, 0x09, 0x00, 0x50, 0x11, 0x5C]

/-- V1: STATUS and CSUM_RES. -/
theorem test_csum_rfc1071 : shows (step (ranged 1 rfc1071 0 8)) [0x04, 0x18] = some [0x06, 0x220D] := by decide
/-- V12: the sum of offset and length does not wrap. -/
theorem test_csum_range_error :
    shows (step (ranged 1 rfc1071 65535 65535)) [0x04, 0x18] = some [0x6E, 0] := by decide
/-- V18: the IP group. -/
theorem test_parseIp_any_protocol :
    shows (step (loaded 2 tcpHeader)) [0x04, 0x20, 0x28, 0x2C, 0x34, 0x38, 0x3C]
      = some [0x06, 0x45000014, 0x7806ACAC, 0xC0000201, 20, 0, 20] := by decide
/-- V15: one byte short of the fixed header. -/
theorem test_parseIp_too_short :
    shows (step (loaded 2 (tcpHeader.take 19))) [0x04, 0x20, 0x34] = some [0x1E, 0, 0] := by decide
/-- The worked example of 43_icmp_classify.md R230. -/
theorem test_parseIcmp_echo_request :
    shows (step (ranged 3 [0x08, 0x00, 0xB5, 0xBC, 0x42, 0x42, 0x00, 0x01] 0 8)) [0x04, 0x44, 0x50, 0x54, 0x58, 0x74, 0x78]
      = some [0x06, 8, 0x102, 0x4242, 1, 8, 0] := by decide
/-- R230: seven bytes are too few. -/
theorem test_parseIcmp_short : shows (step (ranged 3 rfc1071 1 7)) [0x04, 0x40] = some [0x5E, 0] := by decide
/-- V24: an empty payload. -/
theorem test_classify_echo_request :
    shows (step (loaded 4 echoRequest)) [0x04, 0x40, 0x44, 0x50, 0x54, 0x74, 0x78, 0x80]
      = some [0x06, 20, 8, 0x102, 0x4242, 28, 0, 0] := by decide
/-- 44_embedded_datagram.md R255: the ports of the embedded datagram. -/
theorem test_classify_embedded_ports :
    shows (step (loaded 4 hostUnreachable)) [0x04, 0x50, 0x80, 0x84, 0x88, 0x8C, 0x98, 0x9C]
      = some [0x06, 0x103, 3, 28, 20, 6, 80, 4444] := by decide
/-- 45_control_commands.md R266: the sticky flag and the results are cleared. -/
theorem test_clear : shows (step { loaded 5 [] with status := { sBusyWr := true }, csumRes := 7, ic := { cls := .unknown } })
    [0x04, 0x18, 0x50] = some [0x06, 0, 0] := by decide
/-- 45_control_commands.md R265: STATUS is kept. -/
theorem test_nop : shows (step { status := { done := true, outcome := .ok }, host := { script := [.wr32 0 0] } }) [0x04]
    = some [0x06] := by decide
/-- 45_control_commands.md R265: while busy it is an ignored write. -/
theorem test_nop_while_busy : shows (step { engine := .holding 4, host := { script := [.wr32 0 0], delay := 1 } }) [0x04]
    = some [0x00010001] := by decide
/-- 45_control_commands.md R267. -/
theorem test_reserved_word : shows (step (loaded 0x00000006 [])) [0x04, 0x18] = some [0x7E, 0] := by decide
/-- 10_state.md R24: `PKT_LEN` clamps. -/
theorem test_pktLen_clamps : shows (step { host := { script := [.wr32 8 0xFFFF] } }) [0x08] = some [2048] := by decide
/-- 30_encoding.md R131, 20_memory.md R75: the checksum goes out high byte first. -/
theorem test_putCsum :
    (match step { csumRes := 0xACA9, host := { script := hostProgram [.putCsum 10] } } with
      | .next t => t.host.script
      | .fault _ => []
      | .refused _ => []) = [.wr8 10 0xAC, .wr8 11 0xA9] := by decide
/-- 30_encoding.md R131: the transactions of a line. -/
theorem test_host_lines : hostProgram [.load 4 [0x45, 0x00], .setLen 20, .csum 1 4] =
    [.wr8 4 0x45, .wr8 5 0x00, .wr32 0x08 20, .wr32 0x0C 1, .wr32 0x10 4, .wr32 0x00 0x01] := by decide

/-! The rows of the (type, code) decoder, on a message of 8 bytes: STATUS, IC_CLASS and the fields of the class. -/

/-- R213: no MTU but for code 4; no embedded datagram (R252) -/
theorem test_row_icmpDestUnreachNetwork : shows (step (message 0x03000000 0x00000578)) [0x04, 0x50, 0x60]
    = some [0x806, 0x103, 0x0] := by decide
/-- R213: no MTU but for code 4; no embedded datagram (R252) -/
theorem test_row_icmpDestUnreachHost : shows (step (message 0x03010000 0x00000578)) [0x04, 0x50, 0x60]
    = some [0x806, 0x103, 0x0] := by decide
/-- R213: no MTU but for code 4; no embedded datagram (R252) -/
theorem test_row_icmpDestUnreachProtocol : shows (step (message 0x03020000 0x00000578)) [0x04, 0x50, 0x60]
    = some [0x806, 0x103, 0x0] := by decide
/-- R213: no MTU but for code 4; no embedded datagram (R252) -/
theorem test_row_icmpDestUnreachPort : shows (step (message 0x03030000 0x00000578)) [0x04, 0x50, 0x60]
    = some [0x806, 0x103, 0x0] := by decide
/-- R213, the MTU of V33 -/
theorem test_row_icmpDestUnreachNeedsFragment : shows (step (message 0x03040000 0x00000578)) [0x04, 0x50, 0x60]
    = some [0x806, 0x103, 0x578] := by decide
/-- R213: no MTU but for code 4; no embedded datagram (R252) -/
theorem test_row_icmpDestUnreachSourceRouteFailed : shows (step (message 0x03050000 0x00000578)) [0x04, 0x50, 0x60]
    = some [0x806, 0x103, 0x0] := by decide
/-- R215, the gateway of V32 -/
theorem test_row_icmpRedirectNetwork : shows (step (message 0x05000000 0x0A000001)) [0x04, 0x50, 0x5C]
    = some [0x806, 0x105, 0xA000001] := by decide
/-- R215, the gateway of V32 -/
theorem test_row_icmpRedirectHost : shows (step (message 0x05010000 0x0A000001)) [0x04, 0x50, 0x5C]
    = some [0x806, 0x105, 0xA000001] := by decide
/-- R215, the gateway of V32 -/
theorem test_row_icmpRedirectTosNetwork : shows (step (message 0x05020000 0x0A000001)) [0x04, 0x50, 0x5C]
    = some [0x806, 0x105, 0xA000001] := by decide
/-- R215, the gateway of V32 -/
theorem test_row_icmpRedirectTosHost : shows (step (message 0x05030000 0x0A000001)) [0x04, 0x50, 0x5C]
    = some [0x806, 0x105, 0xA000001] := by decide
/-- R218, R252 -/
theorem test_row_icmpTimeExceededInTransit : shows (step (message 0x0B000000 0x00000001)) [0x04, 0x50, 0x80]
    = some [0x806, 0x108, 0x0] := by decide
/-- R218, R252 -/
theorem test_row_icmpTimeExceededReassembly : shows (step (message 0x0B010000 0x00000001)) [0x04, 0x50, 0x80]
    = some [0x806, 0x108, 0x0] := by decide
/-- R211, the identifier of V21 -/
theorem test_row_icmpEchoReply : shows (step (message 0x0000DEEB 0x42420001)) [0x04, 0x50, 0x54, 0x58, 0x74]
    = some [0x6, 0x101, 0x4242, 0x1, 0x8] := by decide
/-- R211, the identifier of V22 -/
theorem test_row_icmpEchoReply_foreign : shows (step (message 0x00000EFA 0x12340001)) [0x04, 0x50, 0x54, 0x58, 0x74]
    = some [0xA, 0x101, 0x1234, 0x1, 0x0] := by decide
/-- R212: never foreign -/
theorem test_row_icmpEchoRequest : shows (step (message 0x0800D6EB 0x12340007)) [0x04, 0x50, 0x54, 0x58, 0x74]
    = some [0x6, 0x102, 0x1234, 0x7, 0x8] := by decide
/-- R206, V34 -/
theorem test_row_icmpDestinationUnreachable : shows (step (message 0x0309FCF6 0x00000000)) [0x04, 0x50, 0x60]
    = some [0xC06, 0x3, 0x0] := by decide
/-- R214, V35 -/
theorem test_row_icmpSourceQuench : shows (step (message 0x0400CA52 0x00000000)) [0x04, 0x50, 0x80]
    = some [0x806, 0x104, 0x0] := by decide
/-- R206, R215 -/
theorem test_row_icmpRedirect : shows (step (message 0x05040000 0x0A000001)) [0x04, 0x50, 0x5C]
    = some [0xC06, 0x5, 0xA000001] := by decide
/-- R216, V40 -/
theorem test_row_icmpRouterAdvertisement : shows (step (message 0x0900E4F4 0x01020708)) [0x04, 0x50, 0x68, 0x6C]
    = some [0x6, 0x106, 0x1, 0x708] := by decide
/-- R217 -/
theorem test_row_icmpRouterSolicitation : shows (step (message 0x0A000000 0xFFFFFFFF)) [0x04, 0x50, 0x5C]
    = some [0x6, 0x107, 0x0] := by decide
/-- R206, R218 -/
theorem test_row_icmpTimeExceeded : shows (step (message 0x0B020000 0x00000000)) [0x04, 0x50, 0x80]
    = some [0xC06, 0x8, 0x0] := by decide
/-- R219, the pointer of V36 -/
theorem test_row_icmpParameterProblem : shows (step (message 0x0C001FC9 0x14000000)) [0x04, 0x50, 0x64]
    = some [0x806, 0x109, 0x14] := by decide
/-- R220 -/
theorem test_row_icmpTimestamp : shows (step (message 0x0D400000 0x42420001)) [0x04, 0x50, 0x54]
    = some [0x6, 0x10A, 0x0] := by decide
/-- R221 -/
theorem test_row_icmpTimestampReply : shows (step (message 0x0E000000 0x42420001)) [0x04, 0x50, 0x54]
    = some [0x6, 0x10B, 0x0] := by decide
/-- R222 -/
theorem test_row_icmpInfoRequest : shows (step (message 0x0F000000 0x42420001)) [0x04, 0x50, 0x54]
    = some [0x6, 0x10C, 0x0] := by decide
/-- R223 -/
theorem test_row_icmpInfoReply : shows (step (message 0x10000000 0x42420001)) [0x04, 0x50, 0x54]
    = some [0x6, 0x10D, 0x0] := by decide
/-- R224 -/
theorem test_row_icmpAddressMaskRequest : shows (step (message 0x11000000 0x42420001)) [0x04, 0x50, 0x54]
    = some [0x6, 0x10E, 0x0] := by decide
/-- R225, V42: the mask is cut off -/
theorem test_row_icmpAddressMaskReply : shows (step (message 0x1200EDFC 0x00010002)) [0x04, 0x50, 0x70]
    = some [0x1006, 0x10F, 0x0] := by decide
/-- R226, V43 -/
theorem test_row_icmpUnknown : shows (step (message 0xFF07FCF1 0x01020304)) [0x04, 0x50, 0x54]
    = some [0x206, 0x110, 0x0] := by decide

/-! ## Part 4: witnesses of the hypotheses of the statements -/

/-- The engine idle, the host about to take an action. -/
def idleWith (a : HostAction) : State := { host := { script := [a] } }

/-- The engine holding a word, the host about to take an action before the completion. -/
def busyWith (word : Word) (a : HostAction) : State := { engine := .holding word, host := { script := [a], delay := 1 } }

/-- The engine holding a word that is due now, the host with an action still to take. -/
def dueBeforeHost : State := { engine := .holding 4, host := { script := [.wait], delay := 0 } }

theorem witness_DecodeEncodeRoundTrip :
    (Instr.icmpDestinationUnreachable 6).WellFormed = true ∧ (Instr.icmpRedirect 4).WellFormed = true
    ∧ (Instr.icmpTimeExceeded 2).WellFormed = true ∧ (Instr.icmpUnknown 19 255).WellFormed = true := by decide
theorem witness_EncodeDecodeRoundTrip :
    decode (.command 5) = .ok .clear ∧ decode (.icmpKey 0x0306) = .ok (.icmpDestinationUnreachable 6) := by decide
theorem witness_ChecksumIsComplementOfFoldedSum :
    rfc1071.length ≤ 65535 ∧ (List.replicate 65535 (0xFF : Byte)).length ≤ 65535 :=
  ⟨by decide, by rw [List.length_replicate]⟩
theorem witness_AccumulatorNeverWraps : (List.replicate 65535 (0xFF : Byte)).length ≤ 65535 := by rw [List.length_replicate]
theorem witness_OddLastByteIsAHighByte : ([] : List Byte).length % 2 = 0 ∧ ([1, 2] : List Byte).length % 2 = 0 := by decide
theorem witness_ChecksumCornerValues :
    (∀ b ∈ ([0, 0, 0] : List Byte), b = 0) ∧ (List.replicate 65535 (0xFF : Byte)).length ≤ 65535 :=
  ⟨by decide, by rw [List.length_replicate]⟩
theorem witness_StoredChecksumVerifiesToZero :
    ([] : List Byte).length % 2 = 0 ∧ ([] : List Byte).length + 2 + (List.replicate 65533 (0xFF : Byte)).length ≤ 65535
    ∧ [(1 : Byte), 2].length % 2 = 0 ∧ [(1 : Byte), 2].length + 2 + [(3 : Byte)].length ≤ 65535 :=
  ⟨by decide, by rw [List.length_replicate]; decide, by decide, by decide⟩
theorem witness_CsumStoresChecksumOrRaisesRange :
    (ranged 1 rfc1071 4 4).argOff.toNat + (ranged 1 rfc1071 4 4).argLen.toNat ≤ (ranged 1 rfc1071 4 4).pktLen.toNat
    ∧ (ranged 1 rfc1071 4 5).pktLen.toNat < (ranged 1 rfc1071 4 5).argOff.toNat + (ranged 1 rfc1071 4 5).argLen.toNat := by
  decide
theorem witness_CsumOfEmptyRangeIsAllOnes :
    ((ranged 1 rfc1071 8 0).argLen = 0 ∧ (ranged 1 rfc1071 8 0).argOff.toNat ≤ (ranged 1 rfc1071 8 0).pktLen.toNat)
    ∧ (ranged 1 [] 0 0).argOff.toNat ≤ (ranged 1 [] 0 0).pktLen.toNat := by decide
theorem witness_ParseIpReportsGoodHeader : GoodHeader (loaded 2 tcpHeader) := by unfold GoodHeader; decide
theorem witness_ParseIpRefusesInOrder :
    (loaded 2 (tcpHeader.take 19)).pktLen.toNat < 20
    ∧ (20 ≤ (loaded 2 (0x35 :: tcpHeader.tail)).pktLen.toNat
      ∧ ((loaded 2 (0x35 :: tcpHeader.tail)).byte 0).toNat / 16 ≠ 4)
    ∧ (20 ≤ (loaded 2 (0x44 :: tcpHeader.tail)).pktLen.toNat ∧ ((loaded 2 (0x44 :: tcpHeader.tail)).byte 0).toNat / 16 = 4
      ∧ ((loaded 2 (0x44 :: tcpHeader.tail)).byte 0).toNat % 16 < 5) := by decide
theorem witness_ParseIcmpRefusesInOrder :
    (ranged 3 rfc1071 0 9).pktLen.toNat < (ranged 3 rfc1071 0 9).argOff.toNat + (ranged 3 rfc1071 0 9).argLen.toNat
    ∧ (ranged 3 rfc1071 1 7).argOff.toNat + (ranged 3 rfc1071 1 7).argLen.toNat ≤ (ranged 3 rfc1071 1 7).pktLen.toNat
    ∧ (ranged 3 rfc1071 1 7).argLen.toNat < 8 := by decide
theorem witness_ParseIcmpRunsTheSelectedRow :
    (ranged 3 rfc1071 0 8).argOff.toNat + (ranged 3 rfc1071 0 8).argLen.toNat ≤ (ranged 3 rfc1071 0 8).pktLen.toNat
    ∧ 8 ≤ (ranged 3 rfc1071 0 8).argLen.toNat := by decide
theorem witness_ClassifyRefusesInOrder_header :
    (loaded 4 (tcpHeader.take 19)).pktLen.toNat < 20
    ∧ (20 ≤ (loaded 4 (0x35 :: tcpHeader.tail)).pktLen.toNat
      ∧ ((loaded 4 (0x35 :: tcpHeader.tail)).byte 0).toNat / 16 ≠ 4)
    ∧ (20 ≤ (loaded 4 (0x44 :: tcpHeader.tail)).pktLen.toNat ∧ ((loaded 4 (0x44 :: tcpHeader.tail)).byte 0).toNat / 16 = 4
      ∧ ((loaded 4 (0x44 :: tcpHeader.tail)).byte 0).toNat % 16 < 5) := by decide
theorem witness_ClassifyRefusesInOrder_notIcmp :
    20 ≤ (loaded 4 tcpHeader).pktLen.toNat ∧ GoodHeader (loaded 4 tcpHeader) ∧ (loaded 4 tcpHeader).byte 9 ≠ 1 := by
  unfold GoodHeader; decide
theorem witness_ClassifyRefusesInOrder_short :
    GoodHeader (loaded 4 (echoRequest.take 27)) ∧ (loaded 4 (echoRequest.take 27)).byte 9 = 1
    ∧ (min (declaredLength (loaded 4 (echoRequest.take 27))) (loaded 4 (echoRequest.take 27)).pktLen.toNat : Int)
        - (((loaded 4 (echoRequest.take 27)).byte 0).toNat % 16 * 4 : Nat) < 8 := by
  unfold GoodHeader declaredLength; decide
theorem witness_ClassifyRunsTheSelectedRow :
    GoodHeader (loaded 4 echoRequest) ∧ (loaded 4 echoRequest).byte 9 = 1
    ∧ ((loaded 4 echoRequest).byte 0).toNat % 16 * 4 + 8
        ≤ min (declaredLength (loaded 4 echoRequest)) (loaded 4 echoRequest).pktLen.toNat := by
  unfold GoodHeader declaredLength; decide
theorem witness_DestinationUnreachableRows : 5 < (6 : Byte).toNat ∧ 5 < (255 : Byte).toNat := by decide
theorem witness_RedirectRows : 3 < (4 : Byte).toNat ∧ 3 < (255 : Byte).toNat := by decide
theorem witness_TimeExceededRows : 1 < (2 : Byte).toNat ∧ 1 < (255 : Byte).toNat := by decide
theorem witness_AddressMaskReplyRow :
    12 ≤ ({ message 0x12000000 0 with ic := { len := 12 } } : State).ic.len.toNat
    ∧ ({ message 0x12000000 0 with ic := { len := 11 } } : State).ic.len.toNat < 12 := by decide
theorem witness_UnknownTypeRow :
    (∀ t ∈ ([1, 2, 6, 7, 19, 255] : List Byte),
      t.toNat ∉ [0, 3, 4, 5, 8, 9, 10, 11, 12, 13, 14, 15, 16, 17, 18]) := by decide
/-- Too short; not IPv4; no ports; ports out of reach; ports just inside. -/
theorem witness_EmbeddedDatagramParse :
    ((loaded 3 rfc1071).em = {} ∧ 19 < 0 + 20)
    ∧ (0 + 20 ≤ 20 ∧ ¬(((loaded 3 (0x65 :: tcpHeader.tail)).byte 0).toNat / 16 = 4
        ∧ 5 ≤ ((loaded 3 (0x65 :: tcpHeader.tail)).byte 0).toNat % 16))
    ∧ (((loaded 3 echoRequest).byte 0).toNat / 16 = 4 ∧ 5 ≤ ((loaded 3 echoRequest).byte 0).toNat % 16
        ∧ (loaded 3 echoRequest).byte (0 + 9) ≠ 6 ∧ (loaded 3 echoRequest).byte (0 + 9) ≠ 17)
    ∧ (((loaded 3 tcpHeader).byte 0).toNat / 16 = 4 ∧ 5 ≤ ((loaded 3 tcpHeader).byte 0).toNat % 16
        ∧ (loaded 3 tcpHeader).byte (0 + 9) = 6
        ∧ 23 < 0 + ((loaded 3 tcpHeader).byte 0).toNat % 16 * 4 + 4
        ∧ 0 + ((loaded 3 tcpHeader).byte 0).toNat % 16 * 4 + 4 ≤ 24) := by decide
theorem witness_OtherClassesHaveNoEmbeddedDatagram :
    (0 : Byte).toNat ∉ [3, 4, 5, 11, 12] ∧ (6 : Byte).toNat ∉ [3, 4, 5, 11, 12]
    ∧ (255 : Byte).toNat ∉ [3, 4, 5, 11, 12] := by
  decide
theorem witness_NopChangesNothing :
    ((idleWith (.wr32 0 0)).engine = .idle ∧ (idleWith (.wr32 0 0)).host.script = [.wr32 0 0])
    ∧ ((busyWith 4 (.wr32 0 0)).engine = .holding 4 ∧ (busyWith 4 (.wr32 0 0)).host.script = [.wr32 0 0]
      ∧ (busyWith 4 (.wr32 0 0)).host.delay ≠ 0) := by decide
theorem witness_ReservedWordRaisesBadCmd :
    ((0x00000006 : Word).extractLsb' 8 24 ≠ 0 ∨ 6 ≤ ((0x00000006 : Word).extractLsb' 0 8).toNat)
    ∧ ((0x00000100 : Word).extractLsb' 8 24 ≠ 0 ∨ 6 ≤ ((0x00000100 : Word).extractLsb' 0 8).toNat)
    ∧ ((idleWith (.wr32 0 6)).engine = .idle ∧ (idleWith (.wr32 0 6)).host.script = [.wr32 0 6])
    ∧ ((loaded 0x00000100 []).engine = .holding 0x00000100 ∧ (loaded 0x00000100 []).host.script = []) := by decide
theorem witness_AcceptanceClearsStatusAndHoldsTheWord :
    (idleWith (.wr32 0 1)).engine = .idle ∧ (idleWith (.wr32 0 1)).host.script = [.wr32 0 1] ∧ (1 : Word) ≠ 0 := by decide
theorem witness_WritesWhileBusyOnlySetTheStickyFlag :
    ((busyWith 4 (.wr32 0xFFC 1)).engine = .holding 4 ∧ (busyWith 4 (.wr32 0xFFC 1)).host.script = [.wr32 0xFFC 1]
      ∧ (busyWith 4 (.wr32 0xFFC 1)).host.delay ≠ 0 ∧ LegalAction (busyWith 4 (.wr32 0xFFC 1)).pbufSize (.wr32 0xFFC 1)
      ∧ ∃ off x, HostAction.wr32 0xFFC 1 = .wr32 off x)
    ∧ ((busyWith 4 (.wr8 2047 1)).engine = .holding 4 ∧ (busyWith 4 (.wr8 2047 1)).host.script = [.wr8 2047 1]
      ∧ (busyWith 4 (.wr8 2047 1)).host.delay ≠ 0 ∧ LegalAction (busyWith 4 (.wr8 2047 1)).pbufSize (.wr8 2047 1)
      ∧ ∃ i b, HostAction.wr8 2047 1 = .wr8 i b) :=
  ⟨⟨rfl, rfl, by decide, by unfold LegalAction; decide, _, _, rfl⟩,
    ⟨rfl, rfl, by decide, by unfold LegalAction; decide, _, _, rfl⟩⟩
theorem witness_BufferWriteStoresOneByte :
    (idleWith (.wr8 2047 1)).engine = .idle ∧ (idleWith (.wr8 2047 1)).host.script = [.wr8 2047 1]
    ∧ 2047 < (idleWith (.wr8 2047 1)).pbufSize := by decide
theorem witness_OperandRegisterWrites :
    ∀ off ∈ [0x04, 0x08, 0x0C, 0x10, 0x14, 0xFFC], (idleWith (.wr32 off 0xFFFF)).engine = .idle
      ∧ (idleWith (.wr32 off 0xFFFF)).host.script = [.wr32 off 0xFFFF] ∧ off ≤ 0xFFC ∧ off % 4 = 0 ∧ off ≠ 0
      ∧ (idleWith (.wr32 off 0xFFFF)).pbufSize ≤ 65535 := by decide
theorem witness_ReadsReturnTheRegisterAndChangeNothing :
    turn (idleWith (.rd32 0xFFC)) = .host (.rd32 0xFFC) [] ∧ turn (busyWith 4 (.rd32 0x18)) = .host (.rd32 0x18) []
    ∧ turn (busyWith 4 (.rd8 2047)) = .host (.rd8 2047) [] ∧ 2047 < (busyWith 4 (.rd8 2047)).pbufSize
    ∧ turn (busyWith 4 .wait) = .host .wait [] ∧ turn (idleWith (.putCsum 2047)) = .host (.putCsum 2047) []
    ∧ turn (busyWith 4 (.putCsum 0)) = .host (.putCsum 0) [] := by decide
theorem witness_PairIdIsHardwired :
    ((idleWith (.wr32 0x14 1)).engine = .idle ∧ (idleWith (.wr32 0x14 1)).host.script = [.wr32 0x14 1])
    ∧ ((busyWith 4 (.wr32 0x14 1)).engine = .holding 4 ∧ (busyWith 4 (.wr32 0x14 1)).host.script = [.wr32 0x14 1]
      ∧ (busyWith 4 (.wr32 0x14 1)).host.delay ≠ 0) := by decide
theorem witness_ReservedOffsetsReadZero :
    ∀ off ∈ [0x1C, 0x7C, 0xA0, 0xFFC], off % 4 = 0 ∧ (off = 0x1C ∨ off = 0x7C ∨ (0xA0 ≤ off ∧ off ≤ 0xFFC))
      ∧ ((idleWith (.wr32 off 1)).engine = .idle ∧ (idleWith (.wr32 off 1)).host.script = [.wr32 off 1])
      ∧ ((busyWith 4 (.wr32 off 1)).engine = .holding 4 ∧ (busyWith 4 (.wr32 off 1)).host.script = [.wr32 off 1]
        ∧ (busyWith 4 (.wr32 off 1)).host.delay ≠ 0) := by decide
/-- A good state: reset, with a command pending and a host write to come. -/
theorem witness_good_busy_state : GoodState (busyWith 4 (.wr8 0 1)) :=
  ⟨by unfold BufferInv; decide, show (4 : Word) ≠ 0 ∧ _ = _ from ⟨by decide, rfl⟩, by unfold StatusInv; decide,
    by unfold IpInv; decide, by unfold IcInv; decide, by unfold EmInv; decide⟩
theorem witness_BusyStatusShowsNothingElse :
    GoodState (busyWith 4 (.wr8 0 1)) ∧ (busyWith 4 (.wr8 0 1)).engine = .holding 4 := ⟨witness_good_busy_state, rfl⟩
theorem witness_ResetEventAbandonsTheCommand :
    turn (busyWith 4 (.reset false)) = .host (.reset false) [] ∧ turn (idleWith (.reset true)) = .host (.reset true) [] := by
  decide
theorem witness_CommandsWithNoPacket :
    (loaded 1 []).pktLen = 0 ∧ (loaded 1 []).argOff = 0 ∧ (loaded 1 []).argLen = 0 := by decide
theorem witness_EveryStepKeepsTheInvariant :
    GoodState (busyWith 4 (.wr8 0 1)) ∧ ∃ t, step (busyWith 4 (.wr8 0 1)) = .next t := ⟨witness_good_busy_state, _, rfl⟩
/-- Two states that differ in STATUS, a result register and a byte at or above `PKT_LEN`. -/
theorem witness_ResultsDependOnInputsAlone :
    SameInputs { loaded 1 rfc1071 with pktLen := 7 }
      { loaded 1 (rfc1071.take 7) with csumRes := 5, status := { done := true, outcome := .ok } } :=
  ⟨by decide, by decide, by decide, by decide⟩
theorem witness_AcceptedCommandCompletes :
    (busyWith 4 (.wr32 0 1)).engine = .holding 4 ∧ (4 : Word) ≠ 0
    ∧ ∀ a ∈ (busyWith 4 (.wr32 0 1)).host.script.take (busyWith 4 (.wr32 0 1)).host.delay,
        LegalAction (busyWith 4 (.wr32 0 1)).pbufSize a
        ∧ (∀ i, a = .putCsum i → i + 1 < (busyWith 4 (.wr32 0 1)).pbufSize) ∧ ∀ p, a ≠ .reset p := by
  refine ⟨rfl, by decide, fun a ha => ?_⟩
  have h : a = .wr32 0 1 := by simpa [busyWith] using ha
  subst h
  exact ⟨by unfold LegalAction; decide, fun _ h => (nomatch h), fun _ h => (nomatch h)⟩
/-- The boundary of PUTCSUM's clause. -/
theorem witness_AcceptedCommandCompletes_putCsum :
    (busyWith 4 (.putCsum 2046)).engine = .holding 4 ∧ (4 : Word) ≠ 0
    ∧ ∀ a ∈ (busyWith 4 (.putCsum 2046)).host.script.take (busyWith 4 (.putCsum 2046)).host.delay,
        LegalAction (busyWith 4 (.putCsum 2046)).pbufSize a
        ∧ (∀ i, a = .putCsum i → i + 1 < (busyWith 4 (.putCsum 2046)).pbufSize) ∧ ∀ p, a ≠ .reset p := by
  refine ⟨rfl, by decide, fun a ha => ?_⟩
  have h : a = .putCsum 2046 := by simpa [busyWith] using ha
  subst h
  exact ⟨trivial, fun i h => by cases h; decide, fun _ h => (nomatch h)⟩
theorem witness_HostActionsWhileBusyDoNotChangeTheResult :
    (busyWith 4 (.wr32 0 1)).engine = .holding 4 ∧ turn (busyWith 4 (.wr32 0 1)) = .host (.wr32 0 1) []
    ∧ (∀ p, HostAction.wr32 0 1 ≠ .reset p) ∧ ∃ t, step (busyWith 4 (.wr32 0 1)) = .next t :=
  ⟨rfl, rfl, fun _ h => (nomatch h), _, rfl⟩
theorem witness_ResultsStayUntilTheNextAcceptance :
    (idleWith (.wr32 0 0)).engine = .idle ∧ (idleWith (.wr32 0 0)).host.script = [.wr32 0 0]
    ∧ (∀ p, HostAction.wr32 0 0 ≠ .reset p) ∧ (∀ v, HostAction.wr32 0 0 = .wr32 0 v → v = 0)
    ∧ ∃ t, step (idleWith (.wr32 0 0)) = .next t :=
  ⟨rfl, rfl, fun _ h => (nomatch h), fun _ h => (HostAction.wr32.inj h).2.symm, _, rfl⟩
theorem witness_StepRunsTheDecodedInstruction :
    ((loaded 5 []).engine = .holding 5 ∧ (loaded 5 []).host.script = [] ∧ decode (.command 5) = .ok .clear)
    ∧ (dueBeforeHost.engine = .holding 4 ∧ dueBeforeHost.host.script = [.wait] ∧ dueBeforeHost.host.delay = 0
      ∧ decode (.command 4) = .ok .classify)
    ∧ ((message 0x04000000 0).engine = .dispatching
      ∧ decode (.icmpKey ((message 0x04000000 0).ic.w0.extractLsb' 16 16)) = .ok (.icmpSourceQuench 0))
    ∧ ((idleWith (.wr32 0 0)).engine = .idle ∧ (idleWith (.wr32 0 0)).host.script = [.wr32 0 0])
    ∧ (decodeTableWord 32 5 = some .clear ∧ Instr.clear ≠ .nop) ∧ decodeTableWord 32 0 = some .nop := by decide
/-- Both sides of the boundary of the interface; a PUTCSUM at the last index goes on, and stops at the second of its writes. -/
theorem witness_StepStopsOnlyOutsideTheInterface :
    shows (step (idleWith (.rd32 0xFFC))) [0x04] = some [0] ∧ step (idleWith (.rd32 0x1000)) = .fault (.noSuchRegister 0x1000)
    ∧ step (idleWith (.rd32 0x1)) = .refused (.misalignedRegister 0x1)
    ∧ step (idleWith (.rd8 2048)) = .fault (.noSuchBufferByte 2048)
    ∧ (match step (idleWith (.putCsum 2047)) with
      | .next t => t.host.script
      | .fault _ => []
      | .refused _ => []) = [.wr8 2047 0, .wr8 2048 0]
    ∧ shows (step (idleWith (.wr8 2047 0))) [0x04] = some [0]
    ∧ step (idleWith (.wr8 2048 0)) = .fault (.noSuchBufferByte 2048) :=
  ⟨by decide, rfl, rfl, rfl, by decide, by decide, rfl⟩

end Sys2Proof.Tests
end

section
/-! PROOFS. The invariant of the machine: the reset state has it (O51), and every step keeps it (O52). A host action changes few
fields; a completion step is followed through its stages: the cleared status, `ip_parse`, the class rule, the end of the
command. -/

namespace Sys2Proof.Machine

/-! The parts of the invariant at zeroed groups. -/

/-- A zeroed IP group is consistent. -/
theorem IpInv.of_zero {s : State} (h : s.ip = {}) : IpInv s := by
  unfold IpInv
  rw [h]
  exact ⟨rfl, rfl, Nat.zero_le _, Nat.zero_le _⟩

/-- A zeroed IC group is consistent. -/
theorem IcInv.of_zero {s : State} (h : s.ic = {}) : IcInv s := by
  unfold IcInv
  rw [h]
  exact ⟨fun _ => rfl, absurd rfl, .inl ⟨rfl, rfl⟩⟩

/-- A zeroed EM group is consistent, whatever the IC group holds. -/
theorem EmInv.of_zero {s : State} (h : s.em = {}) : EmInv s := by
  unfold EmInv
  rw [h]
  exact ⟨fun _ => rfl, nofun, nofun, fun _ => ⟨rfl, rfl⟩⟩

/-- An idle machine with every register 0 is good if its buffer is. -/
theorem GoodState.of_zero {s : State} (hb : BufferInv s) (he : s.engine = .idle) (hs : s.status = {}) (hip : s.ip = {})
    (hic : s.ic = {}) (hem : s.em = {}) : GoodState s := by
  refine ⟨hb, ?_, ?_, .of_zero hip, .of_zero hic, .of_zero hem⟩
  · simp [EngineInv, he, hs]
  · simp [StatusInv, hs]

/-! What the host's actions keep. -/

/-- The invariant says nothing of the host. -/
theorem GoodState.with_host {s : State} (h : GoodState s) (a : HostAgent) : GoodState { s with host := a } := h

/-- An ignored write keeps the invariant: it speaks of `STATUS[15:0]` alone. -/
theorem GoodState.ignoredWrite {s : State} (h : GoodState s) : GoodState s.ignoredWrite := by
  obtain ⟨hb, he, hs, hr⟩ := h
  refine ⟨hb, ?_, hs, hr⟩
  unfold EngineInv at he ⊢
  rw [State.ignoredWrite_engine]
  cases hc : s.engine with
  | idle => rw [hc] at he; exact he
  | holding v =>
    rw [hc] at he
    refine ⟨he.1, ?_⟩
    rw [State.ignoredWrite_status, he.2]
    rfl
  | dispatching => rw [hc] at he; exact he

/-- An accepted command is no `NOP`, and `STATUS` then shows `BUSY` alone (45_control_commands.md R261, R264). -/
theorem GoodState.accept {s : State} (h : GoodState s) {v : Word} (hv : v ≠ 0) : GoodState (s.accept v) := by
  obtain ⟨hb, -, -, hr⟩ := h
  refine ⟨hb, ⟨hv, rfl⟩, ?_, hr⟩
  simp [StatusInv, Status.cleared]

/-- `PKT_LEN` is clamped to `PBUF_SIZE` (10_state.md R24). -/
theorem clamped_le (n size : Nat) : (BitVec.ofNat 16 (min n size)).toNat ≤ size := by
  rw [BitVec.toNat_ofNat]
  exact (Nat.mod_le _ _).trans (Nat.min_le_right _ _)

theorem GoodState.writeReg {s : State} (h : GoodState s) (off : Nat) (v : Word) : GoodState (writeReg off v s) := by
  rcases writeReg_cases off v s with ⟨-, hw⟩ | ⟨-, hw⟩ | ⟨-, hw⟩ | ⟨-, -, -, hw⟩ <;> rw [hw]
  · obtain ⟨⟨hmin, hmax, -, hwf⟩, hr⟩ := h
    exact ⟨⟨hmin, hmax, clamped_le _ _, hwf⟩, hr⟩
  · exact h
  · exact h
  · exact h

theorem GoodState.wr32 {s t : State} (h : GoodState s) {off : Nat} {v : Word} (ht : wr32 off v s = .next t) :
    GoodState t := by
  rcases wr32_cases off v s with ⟨-, hw⟩ | ⟨-, -, -, hw⟩ | ⟨-, -, hv, hw⟩ | ⟨-, -, hw⟩ <;> rw [hw] at ht <;> cases ht
  · exact h.ignoredWrite
  · exact h
  · exact h.accept hv
  · exact h.writeReg off v

theorem GoodState.rd32 {s : State} (h : GoodState s) (off : Nat) : GoodState (rd32 off s) := by
  rcases rd32_cases off s with ⟨-, hr⟩ | ⟨-, hr⟩ <;> rw [hr] <;> exact h.with_host _

theorem GoodState.wr8 {s : State} (h : GoodState s) {i : Nat} (hi : i < s.pbufSize) (b : Byte) : GoodState (wr8 i b s) := by
  unfold Machine.wr8
  split
  · exact h.ignoredWrite
  · obtain ⟨⟨hmin, hmax, hlen, hwf⟩, hr⟩ := h
    exact ⟨⟨hmin, hmax, hlen, Memory.set_wf hwf hi b⟩, hr⟩

theorem GoodState.resetEvent {s : State} (h : GoodState s) (p : Bool) : GoodState (s.resetEvent p) := by
  obtain ⟨⟨hmin, hmax, -, hwf⟩, -⟩ := h
  exact .of_zero ⟨hmin, hmax, Nat.zero_le _, Memory.resetEvent_wf hwf p⟩ rfl rfl rfl rfl rfl

/-- No action of the host or the platform breaks the invariant. -/
theorem GoodState.hostTurn {s t : State} (h : GoodState s) {a : HostAction} {rest : List HostAction}
    (ht : hostTurn a rest s = .next t) : GoodState t := by
  have hk : GoodState (s.taken rest) := h.with_host _
  rcases hostTurn_cases a rest s with ⟨-, hn⟩ | ⟨-, hn⟩
  · rcases hn with ⟨off, v, -, hn⟩ | ⟨off, -, hn⟩ | ⟨i, b, -, hi, hn⟩ | ⟨i, -, -, hn⟩ | ⟨-, hn⟩ | ⟨i, -, hn⟩ | ⟨p, -, hn⟩
      <;> rw [hn] at ht
    · exact hk.wr32 ht
    · cases ht; exact hk.rd32 off
    · cases ht; exact hk.wr8 hi b
    · cases ht; exact hk.with_host _
    · cases ht; exact h.with_host _
    · cases ht; exact (h.with_host _).rd32 0x18
    · cases ht; exact hk.resetEvent p
  · exact absurd ht (hn t)

/-! The inside of a completion step. -/

/-- What holds inside a completion step as long as no class rule has run: the data part of the invariant, and none of the four
warnings that do not accompany an error (60_exceptions.md R282). -/
structure MidCommand (s : State) : Prop where
  buffer : BufferInv s
  ip : IpInv s
  ic : IcInv s
  em : EmInv s
  quiet : s.status.wUnkType = false ∧ s.status.wUnkCode = false ∧ s.status.wEmbBad = false ∧ s.status.wFieldTrunc = false

/-- A command body starts with a cleared status. -/
theorem GoodState.beginCommand {s : State} (h : GoodState s) : MidCommand s.beginCommand := by
  obtain ⟨hb, -, -, hip, hic, hem⟩ := h
  exact ⟨hb, hip, hic, hem, rfl, rfl, rfl, rfl⟩

theorem MidCommand.zeroIp {s : State} (h : MidCommand s) : MidCommand s.zeroIp := { h with ip := .of_zero rfl }

theorem MidCommand.zeroIcEm {s : State} (h : MidCommand s) : MidCommand s.zeroIcEm :=
  { h with ic := .of_zero rfl, em := .of_zero rfl }

/-- A raised error ends the command in a good state. -/
theorem MidCommand.raise {s : State} (h : MidCommand s) (e : ErrCode) : GoodState (s.raise e) := by
  refine ⟨h.buffer, ?_, ⟨?_, fun _ => h.quiet, nofun⟩, h.ip, h.ic, h.em⟩
  · simp [EngineInv]
  · simp

/-- Outcome `OK` ends the command in a good state. -/
theorem MidCommand.finish_ok {s : State} (h : MidCommand s) : GoodState (s.finish .ok) := by
  refine ⟨h.buffer, ?_, ⟨?_, nofun, nofun⟩, h.ip, h.ic, h.em⟩
  · simp [EngineInv]
  · simp

/-! `ip_parse` -/

/-- The IP group of a header is consistent: its length fields are the header's IHL and total length (10_state.md R35 to R37). -/
theorem IpInv.of_header {s : State} (hb : BufferInv s) : IpInv { s with ip := s.ipGroupOf } := by
  obtain ⟨-, -, hlen, -⟩ := hb
  have hihl : (lowNibble (s.byte 0)).toNat = ((s.be32 0).extractLsb' 24 4).toNat := by
    simp only [lowNibble_toNat, BitVec.extractLsb'_toNat, State.be32_toNat, Nat.shiftRight_eq_div_pow]
    omega
  have htotal : (s.be16 2).toNat = ((s.be32 0).extractLsb' 0 16).toNat := by
    simp only [BitVec.extractLsb'_toNat, State.be16_toNat, State.be32_toNat, Nat.shiftRight_eq_div_pow, Nat.reduceAdd]
    omega
  have := (lowNibble (s.byte 0)).isLt
  have := (s.be16 2).isLt
  unfold IpInv
  simp only [State.ipGroupOf, State.effectiveLength, headerBytes, ipMinHdr, BitVec.toNat_ofNat, ← hihl, ← htotal]
  omega

theorem MidCommand.with_header {s : State} (h : MidCommand s) : MidCommand { s with ip := s.ipGroupOf } :=
  { h with ip := .of_header h.buffer }

theorem MidCommand.warnLenMismatch {s : State} (h : MidCommand s) (c : Bool) : MidCommand (s.warnLenMismatch c) := by
  cases c
  · exact h
  · exact { h with }

/-- An error of `ip_parse` is raised from a state that may end a command. -/
theorem MidCommand.ipParse_raised {s t : State} {e : ErrCode} (h : MidCommand s) (hp : ipParse s = .raised e t) :
    MidCommand t := by
  rcases ipParse_cases s with ⟨-, hc⟩ | ⟨-, -, hc⟩ | ⟨-, -, -, hc⟩ | ⟨-, -, -, hc⟩ <;> rw [hc] at hp <;> cases hp
  · exact h
  · exact h.with_header
  · exact h.with_header

/-- A header that `ip_parse` takes: the groups it does not write stay, and the effective length is inside the buffer. -/
theorem MidCommand.ipParse_value {s t : State} {g : IpHeader} (h : MidCommand s) (hp : ipParse s = .value g t) :
    MidCommand t ∧ t.ic = s.ic ∧ t.em = s.em ∧ g.efflen ≤ t.pbufSize := by
  rcases ipParse_cases s with ⟨-, hc⟩ | ⟨-, -, hc⟩ | ⟨-, -, -, hc⟩ | ⟨-, -, -, hc⟩ <;> rw [hc] at hp <;> cases hp
  obtain ⟨-, -, hlen, -⟩ := h.buffer
  refine ⟨h.with_header.warnLenMismatch _, by simp, by simp, ?_⟩
  rw [State.warnLenMismatch_pbufSize]
  exact (Nat.min_le_right _ _).trans hlen

/-! The class rules. -/

/-- The fields of the IC group that a class rule other than an echo's leaves alone: the message, its class, and the payload
range (43_icmp_classify.md R203). -/
structure SameMessage (g g' : IcGroup) : Prop where
  off : g'.off = g.off
  len : g'.len = g.len
  cls : g'.cls = g.cls
  payOff : g'.payOff = g.payOff
  payLen : g'.payLen = g.payLen

theorem SameMessage.refl (g : IcGroup) : SameMessage g g := ⟨rfl, rfl, rfl, rfl, rfl⟩

/-- All that a class rule can do to the IC and EM groups: a foreign echo reply, an echo with its payload, an error report with
its embedded datagram, or fields of its own. -/
theorem classRule_cases (c : IcmpClass) (code : Byte) (s : State) :
    (c = .echoReply ∧ upperHalf s.ic.w1 ≠ pairId ∧ (classRule c code s).1 = { s with ic := s.ic.withEcho })
    ∨ ((classRule c code s).2 = .ok ∧ (classRule c code s).1 = { s with ic := s.ic.withEcho.withPayload })
    ∨ ((classRule c code s).2 = .ok ∧ errorReporting c = true
        ∧ ∃ g, SameMessage s.ic g ∧ (classRule c code s).1 = State.parseEmbedded { s with ic := g })
    ∨ ((classRule c code s).2 = .ok ∧ SameMessage s.ic (classRule c code s).1.ic ∧ (classRule c code s).1.em = s.em) := by
  cases c with
  | echoReply =>
    by_cases h : upperHalf s.ic.w1 = pairId
    · exact .inr (.inl (by simp [classRule, ruleEchoReply, h]))
    · exact .inl (by simp [classRule, ruleEchoReply, h])
  | echoRequest => exact .inr (.inl ⟨rfl, rfl⟩)
  | destinationUnreachable =>
    refine .inr (.inr (.inl ⟨rfl, rfl, ?_⟩))
    simp only [classRule, ruleDestinationUnreachable]
    split
    · exact ⟨{ s.ic with mtu := lowerHalf s.ic.w1 }, ⟨rfl, rfl, rfl, rfl, rfl⟩, rfl⟩
    · exact ⟨s.ic, .refl _, rfl⟩
  | sourceQuench | timeExceeded => exact .inr (.inr (.inl ⟨rfl, rfl, s.ic, .refl _, rfl⟩))
  | redirect => exact .inr (.inr (.inl ⟨rfl, rfl, { s.ic with gateway := s.ic.w1 }, ⟨rfl, rfl, rfl, rfl, rfl⟩, rfl⟩))
  | parameterProblem =>
    exact .inr (.inr (.inl ⟨rfl, rfl, { s.ic with pointer := byte3 s.ic.w1 }, ⟨rfl, rfl, rfl, rfl, rfl⟩, rfl⟩))
  | addressMaskReply =>
    refine .inr (.inr (.inr ?_))
    simp only [classRule, ruleAddressMaskReply]
    split <;> exact ⟨rfl, ⟨rfl, rfl, rfl, rfl, rfl⟩, rfl⟩
  | routerAdvertisement | noMessage | routerSolicitation | timestamp | timestampReply | infoRequest | infoReply
  | addressMaskRequest | unknown =>
    exact .inr (.inr (.inr ⟨rfl, ⟨rfl, rfl, rfl, rfl, rfl⟩, rfl⟩))

theorem hasPorts_iff (p : Byte) : hasPorts p = true ↔ p = 6 ∨ p = 17 := by
  simp [hasPorts, protoTcp, protoUdp]

theorem State.emHeaderOf_off {e : Nat} (h : e < 65536) (s : State) : (s.emHeaderOf e).off.toNat = e := by
  rw [State.emHeaderOf, BitVec.toNat_ofNat, Nat.mod_eq_of_lt h]

/-- A header length is at most 60, so the 6-bit register holds it. -/
theorem State.emHeaderOf_hlen (e : Nat) (s : State) : (s.emHeaderOf e).hlen.toNat = headerBytes (s.byte e) := by
  have := (lowNibble (s.byte e)).isLt
  rw [State.emHeaderOf, BitVec.toNat_ofNat, headerBytes, Nat.mod_eq_of_lt (by omega)]

/-- The embedded parse does not write the IC group. -/
theorem State.parseEmbedded_ic (s : State) : s.parseEmbedded.ic = s.ic := by
  have h := (embParse_frame (s.ic.off.toNat + icmpMinHdr) s.ic.limit s).rest
  exact (congrArg State.ic h :)

/-- An embedded header that lies inside the message of an error report makes the EM group consistent
(44_embedded_datagram.md R251). -/
theorem EmInv.with_header {s : State} {e : Nat} (hz : s.em = {}) (hc : errorReporting s.ic.cls = true)
    (he : e = s.ic.off.toNat + 8) (hmin : e + 20 ≤ s.ic.off.toNat + s.ic.len.toNat)
    (hfit : s.ic.off.toNat + s.ic.len.toNat < 65536) (hihl : 5 ≤ (lowNibble (s.byte e)).toNat) :
    EmInv { s with em := s.emHeaderOf e } := by
  have hoff := s.emHeaderOf_off (e := e) (by omega)
  have hlo := (headerBytes_range hihl).1
  have hquad : headerBytes (s.byte e) % 4 = 0 := Nat.mul_mod_left _ 4
  refine ⟨nofun, fun _ => ⟨hc, hoff.trans he, ?_, ?_, ?_⟩, ?_, ?_⟩
  · rwa [State.emHeaderOf_hlen]
  · rwa [State.emHeaderOf_hlen]
  · rwa [hoff]
  · simp [State.emHeaderOf, hz]
  · simp [State.emHeaderOf, hz]

/-- The ports of a valid header of TCP or UDP, inside the message, keep the EM group consistent (44_embedded_datagram.md R254). -/
theorem EmInv.withPorts {s : State} (h : EmInv s) (hv : s.em.embValid = true) (hp : s.em.proto = 6 ∨ s.em.proto = 17)
    (hlim : s.em.off.toNat + s.em.hlen.toNat + 4 ≤ s.ic.off.toNat + s.ic.len.toNat) (e n : Nat) : EmInv (s.withPorts e n) := by
  obtain ⟨-, hheader, -, -⟩ := h
  exact ⟨fun hn => absurd (hv.symm.trans hn) nofun, hheader, fun _ => ⟨hp, hlim⟩, nofun⟩

/-- The embedded parse of an error report, run on a zeroed EM group, leaves a consistent one. -/
theorem EmInv.parseEmbedded {s : State} (hz : s.em = {}) (hc : errorReporting s.ic.cls = true)
    (hfit : s.ic.off.toNat + s.ic.len.toNat < 65536) : EmInv s.parseEmbedded := by
  unfold State.parseEmbedded
  rcases embParse_cases (s.ic.off.toNat + icmpMinHdr) s.ic.limit s with ⟨-, h⟩ | ⟨-, -, h⟩ | ⟨hmin, -, hihl, h⟩
  · rw [h]; exact .of_zero hz
  · rw [h]; exact .of_zero hz
  · have hheader := EmInv.with_header hz hc rfl hmin hfit hihl
    rcases h with ⟨-, h⟩ | ⟨-, -, h⟩ | ⟨hports, hlim, h⟩ <;> rw [h]
    · exact hheader
    · exact hheader
    · have he : s.ic.off.toNat + 8 < 65536 := (Nat.le_of_add_right_le hmin).trans_lt hfit
      refine hheader.withPorts rfl ((hasPorts_iff _).1 hports) ?_ _ _
      rw [State.emHeaderOf_hlen, State.emHeaderOf_off he]
      exact hlim

/-! The end of a classified command. -/

/-- What holds where `icmp_parse` selects the class rule: a message of at least 8 bytes inside the buffer, with no payload range
and no embedded datagram yet (43_icmp_classify.md R201 to R204). -/
structure AtSelection (s : State) : Prop where
  buffer : BufferInv s
  ip : IpInv s
  long : 8 ≤ s.ic.len.toNat
  fits : s.ic.off.toNat + s.ic.len.toNat ≤ s.pbufSize
  noPayload : s.ic.payOff = 0 ∧ s.ic.payLen = 0
  em : s.em = {}

/-- The end of the message is a 16-bit number: `PBUF_SIZE` is (00_scope.md R12). -/
theorem AtSelection.limit_lt {s : State} (h : AtSelection s) : s.ic.off.toNat + s.ic.len.toNat < 65536 := by
  obtain ⟨-, hmax, -, -⟩ := h.buffer
  exact Nat.lt_succ_of_le (h.fits.trans hmax)

/-- Writing `IC_CLASS` and the warnings does not leave the point of selection. -/
theorem AtSelection.classified {s : State} (h : AtSelection s) (c : IcmpClass) (k : Bool) : AtSelection (s.classified c k) where
  buffer := by simpa [BufferInv] using h.buffer
  ip := by simpa [IpInv] using h.ip
  long := by simpa using h.long
  fits := by simpa using h.fits
  noPayload := by simpa using h.noPayload
  em := by simpa using h.em

/-- The payload range is 0 or what follows the header: the last clause of `IcInv` (10_state.md R51, R52). -/
def PayloadInv (g : IcGroup) : Prop :=
  g.payOff = 0 ∧ g.payLen = 0 ∨ g.payOff.toNat = g.off.toNat + 8 ∧ g.payLen.toNat = g.len.toNat - 8

/-- Every class rule leaves a payload range as `IcInv` has it. -/
theorem AtSelection.classRule_payload {s : State} (h : AtSelection s) (c : IcmpClass) (code : Byte) :
    PayloadInv (classRule c code s).1.ic := by
  have hlim := h.limit_lt
  have hlong := h.long
  rcases classRule_cases c code s with ⟨-, -, hr⟩ | ⟨-, hr⟩ | ⟨-, -, g, hg, hr⟩ | ⟨-, hg, -⟩
  · rw [hr]; exact .inl h.noPayload
  · rw [hr]
    refine .inr ⟨?_, ?_⟩ <;> refine (BitVec.toNat_ofNat _ _).trans (Nat.mod_eq_of_lt ?_)
      <;> simp only [IcGroup.withEcho, icmpMinHdr] <;> omega
  · rw [hr, State.parseEmbedded_ic]
    exact .inl ⟨hg.payOff.trans h.noPayload.1, hg.payLen.trans h.noPayload.2⟩
  · exact .inl ⟨hg.payOff.trans h.noPayload.1, hg.payLen.trans h.noPayload.2⟩

/-- After the rule of the message's own class the EM group is consistent. -/
theorem AtSelection.classRule_em {s : State} (h : AtSelection s) (code : Byte) : EmInv (classRule s.ic.cls code s).1 := by
  rcases classRule_cases s.ic.cls code s with ⟨-, -, hr⟩ | ⟨-, hr⟩ | ⟨-, hc, g, hg, hr⟩ | ⟨-, -, hem⟩
  · rw [hr]; exact .of_zero h.em
  · rw [hr]; exact .of_zero h.em
  · rw [hr]
    refine .parseEmbedded h.em ?_ ?_
    · show errorReporting g.cls = true
      rw [hg.cls, hc]
    · show g.off.toNat + g.len.toNat < 65536
      rw [hg.off, hg.len]
      exact h.limit_lt
  · exact .of_zero (hem.trans h.em)

/-- Only an echo reply with another identifier is foreign, and its payload range stays 0 (43_icmp_classify.md R211). -/
theorem AtSelection.classRule_foreign {s : State} (h : AtSelection s) {c : IcmpClass} {code : Byte}
    (ho : (classRule c code s).2 = .foreign) :
    c = .echoReply ∧ (classRule c code s).1.ic.ident ≠ pairId
      ∧ (classRule c code s).1.ic.payOff = 0 ∧ (classRule c code s).1.ic.payLen = 0 := by
  rcases classRule_cases c code s with ⟨hc, hid, hr⟩ | ⟨hok, -⟩ | ⟨hok, -⟩ | ⟨hok, -⟩
  · rw [hr]; exact ⟨hc, hid, h.noPayload⟩
  all_goals rw [hok] at ho; cases ho

/-- Every type has a class of its own or is `Unknown`. -/
theorem classOf_ne_noMessage (t : Byte) : classOf t ≠ .noMessage := by
  unfold classOf
  split <;> exact nofun

/-- Classifying the message at the point of selection ends the command in a good state. -/
theorem AtSelection.dispatchClass {s : State} (h : AtSelection s) : GoodState (dispatchClass s) := by
  unfold Machine.dispatchClass
  generalize hcls : classOf (byte3 s.ic.w0) = c
  generalize hk : codeKnown (byte3 s.ic.w0) (byte2 s.ic.w0) = k
  generalize byte2 s.ic.w0 = code
  have hsel := h.classified c k
  obtain ⟨hrest, hengine, ⟨hoff, hlen, hw0, -, hc, hknown⟩, ⟨hdone, herr, -⟩, -, hout⟩ := runClass_frame c code k s
  have hne : (runClass c code k s).status.outcome ≠ .none ∧ (runClass c code k s).status.outcome ≠ .error := by
    rw [hout]; split <;> exact ⟨nofun, nofun⟩
  have hbuffer : BufferInv (runClass c code k s) := by
    have hb := h.buffer; rw [← hrest] at hb; exact hb
  have hip : IpInv (runClass c code k s) := by
    have hi := h.ip; rw [← hrest] at hi; exact hi
  have hsize : (runClass c code k s).pbufSize = s.pbufSize := (congrArg State.pbufSize hrest :)
  refine ⟨hbuffer, ?_, ⟨?_, ?_, ?_⟩, hip, ⟨?_, ?_, hsel.classRule_payload c code⟩, ?_⟩
  · rw [EngineInv, hengine]
    exact ⟨fun _ => hne.1, fun _ => hdone⟩
  · exact ⟨fun he => absurd herr he, fun ho => absurd ho hne.2⟩
  · exact fun ho => absurd ho hne.2
  · intro ho
    rw [hc]
    exact hsel.classRule_foreign ho
  · intro hno
    rw [hc, ← hcls] at hno
    exact absurd hno (classOf_ne_noMessage _)
  · intro _
    rw [hc, hoff, hlen, hw0, hknown, hsize]
    exact ⟨h.long, h.fits, hcls.symm, hk.symm⟩
  · have hem := hsel.classRule_em code
    rw [State.classified_ic] at hem
    exact hem

/-- `icmp_parse` on a range inside the buffer, from zeroed IC and EM groups, ends the command in a good state. -/
theorem MidCommand.icmpParse {s : State} (h : MidCommand s) (hic : s.ic = {}) (hem : s.em = {}) {off lim : Nat}
    (hlim : lim ≤ s.pbufSize) : GoodState (icmpParse off lim s) := by
  unfold Machine.icmpParse
  rcases icmpHeader_cases off lim s with ⟨-, hh⟩ | ⟨hlong, hh⟩ <;> rw [hh]
  · exact h.raise .icmpShort
  · obtain ⟨-, hmax, -, -⟩ := h.buffer
    simp only [Config.pbufSizeMax] at hmax
    have hoff : off % 2 ^ 16 = off := Nat.mod_eq_of_lt (by omega)
    have hlen : (lim - off) % 2 ^ 16 = lim - off := Nat.mod_eq_of_lt (by omega)
    refine AtSelection.dispatchClass ⟨h.buffer, h.ip, ?_, ?_, ?_, hem⟩
    · rw [BitVec.toNat_ofNat, hlen]; omega
    · rw [BitVec.toNat_ofNat, BitVec.toNat_ofNat, hoff, hlen]
      exact (Nat.le_of_eq (by omega)).trans hlim
    · simp [hic]

/-! The commands. -/

theorem GoodState.execCsum {s t : State} (h : GoodState s) (ht : execCsum s = .next t) : GoodState t := by
  have hm := h.beginCommand
  unfold Machine.execCsum at ht
  split at ht <;> cases ht
  · exact MidCommand.finish_ok { hm with }
  · exact MidCommand.raise { hm with } .range

theorem GoodState.execParseIp {s t : State} (h : GoodState s) (ht : execParseIp s = .next t) : GoodState t := by
  have hm := h.beginCommand.zeroIp
  unfold Machine.execParseIp at ht
  split at ht <;> cases ht
  case h_1 hp => exact (hm.ipParse_value hp).1.finish_ok
  case h_2 hp => exact (hm.ipParse_raised hp).raise _

theorem GoodState.execParseIcmp {s t : State} (h : GoodState s) (ht : execParseIcmp s = .next t) : GoodState t := by
  have hm := h.beginCommand.zeroIcEm
  obtain ⟨⟨-, -, hlen, -⟩, -⟩ := h
  unfold Machine.execParseIcmp at ht
  split at ht <;> cases ht
  case isTrue hr => exact hm.icmpParse rfl rfl ((of_decide_eq_true hr).trans hlen)
  case isFalse => exact hm.raise .range

theorem GoodState.execClassify {s t : State} (h : GoodState s) (ht : execClassify s = .next t) : GoodState t := by
  have hm := h.beginCommand.zeroIp.zeroIcEm
  unfold Machine.execClassify at ht
  split at ht
  case h_1 hp => cases ht; exact (hm.ipParse_raised hp).raise _
  case h_2 hp =>
    obtain ⟨hv, hic, hem, hlim⟩ := hm.ipParse_value hp
    split at ht <;> cases ht
    · exact hv.raise .notIcmp
    · exact hv.icmpParse hic hem hlim

theorem GoodState.execClear {s t : State} (h : GoodState s) (ht : execClear s = .next t) : GoodState t := by
  cases ht
  exact MidCommand.finish_ok { h.beginCommand.zeroIp.zeroIcEm with }

/-- The completion step of a pending command word, reserved words included (45_control_commands.md R262, R267). -/
theorem GoodState.complete {s t : State} (h : GoodState s) {v : Word} (hn : turn s = .engine (.command v))
    (ht : step s = .next t) : GoodState t := by
  rw [step, hn] at ht
  simp only [decode] at ht
  rcases decodeCommand_cases v with ⟨-, hd⟩ | ⟨-, -, hd⟩ | ⟨-, hd⟩ | ⟨-, hd⟩ | ⟨-, hd⟩ | ⟨-, hd⟩ | ⟨-, hd⟩ | ⟨-, hd⟩
    <;> rw [hd] at ht
  · cases ht; exact h.beginCommand.raise .badCmd
  · cases ht; exact h.beginCommand.raise .badCmd
  · cases ht; exact h
  · exact h.execCsum ht
  · exact h.execParseIp ht
  · exact h.execParseIcmp ht
  · exact h.execClassify ht
  · exact h.execClear ht

/-- No good state is at the dispatch point, which lies inside a completion step (log 6). -/
theorem GoodState.not_dispatching {s : State} (h : GoodState s) : s.engine ≠ .dispatching := by
  obtain ⟨-, he, -⟩ := h
  intro hd
  rw [EngineInv, hd] at he
  exact he

/-- Settles O51. -/
theorem resetIsAGoodState : Obligations.ResetIsAGoodState :=
  .of_zero ⟨by decide, by decide, Nat.zero_le _, Memory.reset_wf⟩ rfl rfl rfl rfl rfl

/-- Settles O52, by the agent that moves: nobody, the host, or the engine with its pending command. -/
theorem everyStepKeepsTheInvariant : Obligations.EveryStepKeepsTheInvariant := by
  intro s t h ht
  rcases turn_cases s with ⟨-, -, hn⟩ | ⟨a, rest, -, -, hn⟩ | ⟨v, -, -, hn⟩ | ⟨v, a, rest, -, -, -, hn⟩ | ⟨hd, -⟩
  · rw [step, hn] at ht; cases ht; exact h
  · rw [step, hn] at ht; exact h.hostTurn ht
  · exact h.complete hn ht
  · rw [step, hn] at ht; exact h.hostTurn ht
  · exact absurd hd h.not_dispatching

end Sys2Proof.Machine
end

section
/-! PROOFS. The host's side of the block: the register map as the host reads it (O43, O44, O45, O46), what it writes (O39, O42),
what a reset leaves (O48), and that an idle machine keeps its results (O58). A step at which the host moves is brought to the
operation it performs once for each kind of move; the statements then follow from the lemmas about the operations. -/

namespace Sys2Proof.Machine

/-! ## Who moves -/

/-- A pending command shows as `BUSY` (10_state.md R23). -/
theorem State.busy_iff (s : State) : s.busy = true ↔ s.engine ≠ .idle := by
  unfold State.busy
  cases s.engine <;> simp

theorem State.busy_of_idle {s : State} (h : s.engine = .idle) : s.busy = false := by
  simp [State.busy, h]

theorem step_of_host_turn {s : State} {a : HostAction} {rest : List HostAction} (h : turn s = .host a rest) :
    step s = hostTurn a rest s := by
  rw [step, h]

/-- While the engine is idle the host moves as long as it has an action. -/
theorem turn_of_idle {s : State} {a : HostAction} {rest : List HostAction} (he : s.engine = .idle)
    (hs : s.host.script = a :: rest) : turn s = .host a rest := by
  simp [turn, he, hs]

/-- While a command is pending the host moves as long as the delay lasts (45_control_commands.md R263, log 4). -/
theorem turn_of_holding {s : State} {w : Word} {a : HostAction} {rest : List HostAction} (he : s.engine = .holding w)
    (hs : s.host.script = a :: rest) (hd : s.host.delay ≠ 0) : turn s = .host a rest := by
  simp [turn, he, hs, hd]

/-- An access of REG inside the interface is not stopped (20_memory.md R72). -/
theorem onRegister_of_legal {off : Nat} (hl : off ≤ 0xFFC) (h4 : off % 4 = 0) (o : Outcome) : onRegister off o = o := by
  rw [onRegister, regLast, if_neg (Nat.not_lt.2 hl), if_neg (not_not.2 h4)]

/-- An access of PBUF inside the buffer is not stopped (20_memory.md R73). -/
theorem onBuffer_of_lt {i : Nat} {s : State} (hi : i < s.pbufSize) (o : Outcome) : onBuffer i s o = o := if_pos hi

/-! ## Register writes -/

/-- A write while a command is pending is ignored (70_reset_and_hazards.md R321). -/
theorem wr32_busy {s : State} (hb : s.busy = true) (off : Nat) (v : Word) : wr32 off v s = .next s.ignoredWrite := if_pos hb

/-- A write to a register other than `CMD` while no command is pending. -/
theorem wr32_register {s : State} (hb : s.busy = false) {off : Nat} (h0 : off ≠ 0) (v : Word) :
    wr32 off v s = .next (writeReg off v s) := by
  simp [wr32, hb, registerAt_cmd, h0]

/-- A command word other than 0 is accepted while none is pending (45_control_commands.md R261). -/
theorem wr32_command {s : State} (hb : s.busy = false) {v : Word} (hv : v ≠ 0) : wr32 0 v s = .next (s.accept v) := by
  rw [wr32, hb]
  exact if_neg hv

theorem hostTurn_wr32 {off : Nat} (hl : off ≤ 0xFFC) (h4 : off % 4 = 0) (v : Word) (rest : List HostAction) (s : State) :
    hostTurn (.wr32 off v) rest s = wr32 off v (s.taken rest) :=
  onRegister_of_legal hl h4 _

theorem step_wr32_idle {s : State} {off : Nat} {v : Word} {rest : List HostAction} (he : s.engine = .idle)
    (hs : s.host.script = .wr32 off v :: rest) (hl : off ≤ 0xFFC) (h4 : off % 4 = 0) (h0 : off ≠ 0) :
    step s = .next (writeReg off v (s.taken rest)) := by
  rw [step_of_host_turn (turn_of_idle he hs), hostTurn_wr32 hl h4]
  exact wr32_register (s := s.taken rest) (State.busy_of_idle he) h0 v

theorem step_wr32_holding {s : State} {off : Nat} {v w : Word} {rest : List HostAction} (he : s.engine = .holding w)
    (hs : s.host.script = .wr32 off v :: rest) (hd : s.host.delay ≠ 0) (hl : off ≤ 0xFFC) (h4 : off % 4 = 0) :
    step s = .next { s with status := { s.status with sBusyWr := true }, host := (s.taken rest).host } := by
  rw [step_of_host_turn (turn_of_holding he hs hd), hostTurn_wr32 hl h4]
  exact wr32_busy ((State.busy_iff _).2 (by simp [he])) off v

/-- A write to an offset that is no operand register changes nothing (10_state.md R24 to R26, R29). -/
theorem step_wr32_idle_elsewhere {s : State} {off : Nat} {v : Word} {rest : List HostAction} (he : s.engine = .idle)
    (hs : s.host.script = .wr32 off v :: rest) (hl : off ≤ 0xFFC) (h4 : off % 4 = 0) (h0 : off ≠ 0) (h8 : off ≠ 0x08)
    (hC : off ≠ 0x0C) (h10 : off ≠ 0x10) : step s = .next { s with host := (s.taken rest).host } := by
  rw [step_wr32_idle he hs hl h4 h0]
  rcases writeReg_cases off v (s.taken rest) with ⟨h, -⟩ | ⟨h, -⟩ | ⟨h, -⟩ | ⟨-, -, -, hw⟩
  · exact absurd h h8
  · exact absurd h hC
  · exact absurd h h10
  · rw [hw]; rfl

/-- Settles O42, by the register that the write hits. -/
theorem operandRegisterWrites : Obligations.OperandRegisterWrites := by
  intro s off v rest he hs hl h4 h0 hsize
  refine ⟨_, step_wr32_idle he hs hl h4 h0, ?_⟩
  rcases writeReg_cases off v (s.taken rest) with ⟨rfl, hw⟩ | ⟨rfl, hw⟩ | ⟨rfl, hw⟩ | ⟨h8, hC, h10, hw⟩ <;> rw [hw]
  · have hclamp : min (lowerHalf v).toNat s.pbufSize < 2 ^ 16 := (Nat.min_le_right _ _).trans_lt (by omega)
    refine ⟨?_, rfl, rfl, rfl⟩
    rw [if_pos rfl, ← lowerHalf_toNat]
    exact (BitVec.toNat_ofNat _ _).trans (Nat.mod_eq_of_lt hclamp)
  · exact ⟨rfl, lowerHalf_toNat v, rfl, rfl⟩
  · exact ⟨rfl, rfl, lowerHalf_toNat v, rfl⟩
  · exact ⟨(if_neg h8).symm, (if_neg hC).symm, (if_neg h10).symm, rfl⟩

/-! ## The register map -/

/-- `PAIR_ID` stands at offset 0x14 and nowhere else. -/
theorem registerAt_pairId (off : Nat) : registerAt off = some .pairId ↔ off = 0x14 := by
  constructor
  · intro h
    simpa [registerMap, controlMap, ipMap, icMap, emMap] using registerIn_mem h
  · rintro rfl; rfl

/-- No register stands at 0x1C, at 0x7C, or from 0xA0 on (10_state.md R29). -/
theorem registerAt_reserved {off : Nat} (h : off = 0x1C ∨ off = 0x7C ∨ 0xA0 ≤ off) : registerAt off = none := by
  have hmap : ∀ row ∈ registerMap, ¬(row.1 = 0x1C ∨ row.1 = 0x7C ∨ 0xA0 ≤ row.1) := by decide
  cases hr : registerAt off with
  | none => rfl
  | some r => exact absurd h (hmap _ (registerIn_mem hr))

theorem regRead_of_none {off : Nat} (h : registerAt off = none) (s : State) : regRead off s = 0 := by
  rw [regRead, h]

theorem readsFree_iff (off : Nat) (s : State) :
    readsFree off s = true ↔ s.engine ≠ .idle ∧ ∃ r, registerAt off = some r ∧ r.isResult = true := by
  rw [← State.busy_iff, readsFree, Bool.and_eq_true]
  cases registerAt off <;> simp

/-- The offsets of the result registers (70_reset_and_hazards.md R322). -/
theorem result_offset_iff {off : Nat} (h4 : off % 4 = 0) :
    (∃ r, registerAt off = some r ∧ r.isResult = true)
      ↔ off = 0x18 ∨ (0x20 ≤ off ∧ off ≤ 0x78) ∨ (0x80 ≤ off ∧ off ≤ 0x9C) := by
  have hmap : ∀ row ∈ registerMap, row.2.isResult = true →
      row.1 = 0x18 ∨ (0x20 ≤ row.1 ∧ row.1 ≤ 0x78) ∨ (0x80 ≤ row.1 ∧ row.1 ≤ 0x9C) := by decide
  have hall : ∀ k < 40, 4 * k = 0x18 ∨ (0x20 ≤ 4 * k ∧ 4 * k ≤ 0x78) ∨ (0x80 ≤ 4 * k ∧ 4 * k ≤ 0x9C) →
      (registerAt (4 * k)).any Reg.isResult = true := by decide
  constructor
  · rintro ⟨r, hr, hres⟩
    exact hmap _ (registerIn_mem hr) hres
  · intro h
    have hk := hall (off / 4) (by omega) (by omega)
    rwa [show 4 * (off / 4) = off by omega, Option.any_eq_true] at hk

/-- Settles O44. -/
theorem pairIdIsHardwired : Obligations.PairIdIsHardwired := by
  refine ⟨fun s => ⟨rfl, Bool.and_false _⟩, ?_, ?_, rfl⟩
  · intro s v rest he hs
    exact step_wr32_idle_elsewhere he hs (by decide) rfl (by decide) (by decide) (by decide) (by decide)
  · intro s v w rest he hs hd
    exact step_wr32_holding he hs hd (by decide) rfl

/-- Settles O45. -/
theorem reservedOffsetsReadZero : Obligations.ReservedOffsetsReadZero := by
  intro s off h4 hoff
  have hnone : registerAt off = none := registerAt_reserved (by omega)
  refine ⟨regRead_of_none hnone s, ?_, ?_, ?_⟩
  · simp [readsFree, hnone]
  · intro v rest he hs
    exact step_wr32_idle_elsewhere he hs (by omega) h4 (by omega) (by omega) (by omega) (by omega)
  · intro v w rest he hs hd
    exact step_wr32_holding he hs hd (by omega) h4

/-! ## The packed registers -/

/-- Each field of `STATUS` fits its bits (10_state.md R23). -/
theorem statusFields_bounded (s : State) :
    s.busy.toNat ≤ 1 ∧ s.status.done.toNat ≤ 1 ∧ (outcomeNumber s.status.outcome).toNat < 4
      ∧ (errNumber s.status.err).toNat < 16 ∧ s.status.wLenMismatch.toNat ≤ 1 ∧ s.status.wUnkType.toNat ≤ 1
      ∧ s.status.wUnkCode.toNat ≤ 1 ∧ s.status.wEmbBad.toNat ≤ 1 ∧ s.status.wFieldTrunc.toNat ≤ 1
      ∧ s.status.sBusyWr.toNat ≤ 1 :=
  ⟨Bool.toNat_le _, Bool.toNat_le _, (outcomeNumber _).isLt, (errNumber _).isLt, Bool.toNat_le _, Bool.toNat_le _,
    Bool.toNat_le _, Bool.toNat_le _, Bool.toNat_le _, Bool.toNat_le _⟩

/-- `STATUS` as a number: no field reaches into the next (10_state.md R23). -/
theorem statusWord_toNat (s : State) :
    (statusWord s).toNat =
      s.busy.toNat + s.status.done.toNat * 2 + (outcomeNumber s.status.outcome).toNat * 2 ^ 2
        + (errNumber s.status.err).toNat * 2 ^ 4 + s.status.wLenMismatch.toNat * 2 ^ 8 + s.status.wUnkType.toNat * 2 ^ 9
        + s.status.wUnkCode.toNat * 2 ^ 10 + s.status.wEmbBad.toNat * 2 ^ 11 + s.status.wFieldTrunc.toNat * 2 ^ 12
        + s.status.sBusyWr.toNat * 2 ^ 16 := by
  have := statusFields_bounded s
  rw [statusWord, BitVec.toNat_ofNat]
  exact Nat.mod_eq_of_lt (by omega)

/-- `IC_CLASS` as a number (10_state.md R42). -/
theorem icClassWord_toNat (g : IcGroup) :
    (icClassWord g).toNat = (classNumber g.cls).toNat + g.codeKnown.toNat * 2 ^ 8 := by
  have := (classNumber g.cls).isLt
  have := g.codeKnown.toNat_le
  rw [icClassWord, BitVec.toNat_ofNat]
  exact Nat.mod_eq_of_lt (by omega)

/-- `EM_FLAGS` as a number (10_state.md R53). -/
theorem emFlagsWord_toNat (g : EmGroup) : (emFlagsWord g).toNat = g.embValid.toNat + g.portsValid.toNat * 2 := by
  have := g.embValid.toNat_le
  have := g.portsValid.toNat_le
  rw [emFlagsWord, BitVec.toNat_ofNat]
  exact Nat.mod_eq_of_lt (by omega)

/-- A field of a register, read off the register's number. -/
theorem field_eq {w : Word} {start len : Nat} {x : BitVec len} (h : w.toNat / 2 ^ start % 2 ^ len = x.toNat) :
    w.extractLsb' start len = x := by
  apply BitVec.eq_of_toNat_eq
  rw [BitVec.extractLsb'_toNat, Nat.shiftRight_eq_div_pow, h]

/-- A one-bit field, read off the register's number. -/
theorem flag_eq {w : Word} {start : Nat} {b : Bool} (h : w.toNat / 2 ^ start % 2 = b.toNat) :
    w.extractLsb' start 1 = BitVec.ofBool b :=
  field_eq (h.trans (BitVec.toNat_ofBool b).symm)

/-- Settles O46, field by field from the number that the register reads as. -/
theorem statusFieldPositions : Obligations.StatusFieldPositions := by
  refine ⟨fun s => ?_, rfl, rfl, rfl⟩
  have hst := statusWord_toNat s
  have hic : (regRead 0x50 s).toNat = _ := icClassWord_toNat s.ic
  have hem : (regRead 0x80 s).toNat = _ := emFlagsWord_toNat s.em
  have := statusFields_bounded s
  have := (classNumber s.ic.cls).isLt
  have := s.ic.codeKnown.toNat_le
  have := s.em.embValid.toNat_le
  have := s.em.portsValid.toNat_le
  refine ⟨rfl, flag_eq ?_, s.busy_iff, flag_eq ?_, field_eq ?_, field_eq ?_, flag_eq ?_, flag_eq ?_, flag_eq ?_, flag_eq ?_,
    flag_eq ?_, field_eq ?_, flag_eq ?_, field_eq ?_, field_eq ?_, field_eq ?_, flag_eq ?_, field_eq ?_, flag_eq ?_,
    flag_eq ?_, field_eq ?_⟩
  all_goals
    simp only [hst, hic, hem, BitVec.ofNat_eq_ofNat, BitVec.toNat_ofNat]
    omega

/-- Settles O39. -/
theorem acceptanceClearsStatusAndHoldsTheWord : Obligations.AcceptanceClearsStatusAndHoldsTheWord := by
  intro s v rest he hs hv
  have hstep : step s = .next ((s.taken rest).accept v) := by
    rw [step_of_host_turn (turn_of_idle he hs), hostTurn_wr32 (by decide) rfl]
    exact wr32_command (s := s.taken rest) (State.busy_of_idle he) hv
  refine ⟨hstep, fun t ht => ?_⟩
  rw [hstep] at ht
  cases ht
  have hbusy : ((s.taken rest).accept v).busy = true := rfl
  rw [statusWord_toNat, hbusy]
  simp only [State.accept_status, State.taken_status, Status.cleared, outcomeNumber, errNumber, Bool.toNat_true,
    Bool.toNat_false, BitVec.ofNat_eq_ofNat, BitVec.toNat_ofNat]
  omega

/-! ## Reads -/

/-- A zero-extended register as a number (20_memory.md R72). -/
theorem zeroExtend_toNat {n : Nat} (x : BitVec n) (h : n ≤ 32 := by decide) : (x.setWidth 32).toNat = x.toNat :=
  BitVec.toNat_setWidth_of_le h

/-- The whole register map (10_state.md R21). -/
theorem readsAsMapped (s : State) : ReadsAsMapped s :=
  ⟨rfl, rfl, zeroExtend_toNat s.pktLen, zeroExtend_toNat s.argOff, zeroExtend_toNat s.argLen, rfl,
    zeroExtend_toNat s.csumRes, rfl, rfl, rfl, rfl, rfl, rfl, zeroExtend_toNat s.ip.hlen, zeroExtend_toNat s.ip.optlen,
    zeroExtend_toNat s.ip.efflen, zeroExtend_toNat s.ic.off, zeroExtend_toNat s.ic.len, rfl, rfl, rfl,
    zeroExtend_toNat s.ic.ident, zeroExtend_toNat s.ic.seq, rfl, zeroExtend_toNat s.ic.mtu, zeroExtend_toNat s.ic.pointer,
    zeroExtend_toNat s.ic.raCount, zeroExtend_toNat s.ic.raLifetime, rfl, zeroExtend_toNat s.ic.payOff,
    zeroExtend_toNat s.ic.payLen, rfl, rfl, zeroExtend_toNat s.em.off, zeroExtend_toNat s.em.hlen,
    zeroExtend_toNat s.em.proto, rfl, rfl, zeroExtend_toNat s.em.sport, zeroExtend_toNat s.em.dport⟩

/-- What `RD32` does, in one piece: the host is told the value, and only a free one counts (70_reset_and_hazards.md R322). -/
theorem rd32_eq (off : Nat) (s : State) :
    rd32 off s = { s with host := { s.host with
      returned := s.host.returned ++ [.reg (readValue off s)]
      freshReads := if readsFree off s then s.host.freshReads + 1 else s.host.freshReads } } := by
  unfold readValue
  rcases rd32_cases off s with ⟨hf, hr⟩ | ⟨hf, hr⟩ <;> rw [hr, hf] <;> rfl

/-- `CSUM_RES` reads as its field while the engine is idle, and as the next free value otherwise. -/
theorem readsFree_csumRes (s : State) : readsFree 0x18 s = s.busy := Bool.and_true _

/-- Settles O43, action by action. -/
theorem readsReturnTheRegisterAndChangeNothing : Obligations.ReadsReturnTheRegisterAndChangeNothing := by
  refine ⟨readsAsMapped, fun s off _ h4 => ?_, fun s a rest hturn => ?_⟩
  · rw [readsFree_iff, result_offset_iff h4]
  rw [step_of_host_turn hturn]
  refine ⟨?_, ?_, ?_, ?_⟩
  · rintro off rfl hl h4
    refine ⟨rd32 off (s.taken rest), onRegister_of_legal hl h4 _, ?_⟩
    rw [rd32_eq]
    exact ⟨rfl, rfl, rfl, rfl⟩
  · rintro i rfl hi
    exact ⟨rd8 i (s.taken rest), onBuffer_of_lt hi _, rfl, rfl, rfl, rfl⟩
  · rintro rfl
    exact ⟨waitPoll rest s, rfl, rfl, rfl, rfl, rfl⟩
  · rintro i rfl
    refine ⟨putCsumRead i rest s, readValue 0x18 s, rfl, ?_⟩
    rw [putCsumRead, rd32_eq]
    refine ⟨rfl, rfl, rfl, fun he => ?_, fun he => ?_⟩
    · have hf : readsFree 0x18 s = false := (readsFree_csumRes s).trans (State.busy_of_idle he)
      exact ⟨if_neg (Bool.eq_false_iff.1 hf), if_neg (Bool.eq_false_iff.1 hf)⟩
    · have hf : readsFree 0x18 s = true := (readsFree_csumRes s).trans ((State.busy_iff s).2 he)
      exact ⟨if_pos hf, if_pos hf⟩

/-! ## Reset -/

/-- The reset value of each register (10_state.md R21, R67). -/
theorem Reg.value_reset (r : Reg) : r.value State.reset = if r = .pairId then 0x4242 else 0 := by
  cases r <;> rfl

/-- After reset every offset but `PAIR_ID`'s reads 0 (70_reset_and_hazards.md R313). -/
theorem regRead_reset (off : Nat) : regRead off State.reset = if off = 0x14 then 0x4242 else 0 := by
  simp only [← registerAt_pairId, regRead]
  cases registerAt off with
  | none => rfl
  | some r => simp only [Reg.value_reset, Option.some.injEq]

/-- No register tells a machine after the reset event from one after power-on. -/
theorem regRead_resetEvent (off : Nat) (p : Bool) (s : State) : regRead off (s.resetEvent p) = regRead off State.reset := rfl

/-- Settles O48. -/
theorem resetLeavesRegistersZero : Obligations.ResetLeavesRegistersZero :=
  ⟨regRead_reset, rfl, fun s p => ⟨fun off => (regRead_resetEvent off p s).trans (regRead_reset off), rfl⟩, fun _ => rfl⟩

/-! ## An idle machine keeps its results -/

/-- `STATUS`, `CSUM_RES`, the three groups and the engine are as before. -/
structure ResultsKept (s t : State) : Prop where
  engine : t.engine = s.engine
  status : t.status = s.status
  csumRes : t.csumRes = s.csumRes
  ip : t.ip = s.ip
  ic : t.ic = s.ic
  em : t.em = s.em

/-- Taking an action from the script is the host's own affair. -/
theorem ResultsKept.of_taken {rest : List HostAction} {s t : State} (h : ResultsKept (s.taken rest) t) : ResultsKept s t :=
  ⟨h.engine, h.status, h.csumRes, h.ip, h.ic, h.em⟩

theorem rd32_resultsKept (off : Nat) (s : State) : ResultsKept s (rd32 off s) := by
  rw [rd32_eq]; exact ⟨rfl, rfl, rfl, rfl, rfl, rfl⟩

theorem writeReg_resultsKept (off : Nat) (v : Word) (s : State) : ResultsKept s (writeReg off v s) := by
  rcases writeReg_cases off v s with ⟨-, hw⟩ | ⟨-, hw⟩ | ⟨-, hw⟩ | ⟨-, -, -, hw⟩ <;> rw [hw]
    <;> exact ⟨rfl, rfl, rfl, rfl, rfl, rfl⟩

/-- A write to REG that starts no command keeps the results of an idle machine. -/
theorem wr32_resultsKept {off : Nat} {v : Word} {s t : State} (he : s.engine = .idle) (hno : off = 0 → v = 0)
    (ht : wr32 off v s = .next t) : ResultsKept s t := by
  rcases wr32_cases off v s with ⟨hb, -⟩ | ⟨-, -, -, hw⟩ | ⟨-, h0, hv, -⟩ | ⟨-, -, hw⟩
  · exact absurd he ((State.busy_iff s).1 hb)
  · rw [hw] at ht; cases ht; exact ⟨rfl, rfl, rfl, rfl, rfl, rfl⟩
  · exact absurd (hno h0) hv
  · rw [hw] at ht; cases ht; exact writeReg_resultsKept off v s

/-- A host action that is no reset and starts no command keeps the results of an idle machine. -/
theorem hostTurn_resultsKept {a : HostAction} {rest : List HostAction} {s t : State} (he : s.engine = .idle)
    (hreset : ∀ p, a ≠ .reset p) (hno : ∀ v, a = .wr32 0 v → v = 0) (ht : hostTurn a rest s = .next t) :
    ResultsKept s t := by
  have hidle : (s.taken rest).engine = .idle := he
  rcases hostTurn_cases a rest s with ⟨-, hn⟩ | ⟨-, hn⟩
  · rcases hn with ⟨off, v, ha, hn⟩ | ⟨off, -, hn⟩ | ⟨i, b, -, -, hn⟩ | ⟨i, -, -, hn⟩ | ⟨-, hn⟩ | ⟨i, -, hn⟩ | ⟨p, ha, -⟩
    · rw [hn] at ht
      exact (wr32_resultsKept hidle (fun h0 => hno v (h0 ▸ ha)) ht).of_taken
    · rw [hn] at ht; cases ht; exact (rd32_resultsKept off _).of_taken
    · rw [hn, wr8, State.busy_of_idle hidle] at ht; cases ht; exact ⟨rfl, rfl, rfl, rfl, rfl, rfl⟩
    · rw [hn] at ht; cases ht; exact ⟨rfl, rfl, rfl, rfl, rfl, rfl⟩
    · rw [hn] at ht; cases ht; exact ⟨rfl, rfl, rfl, rfl, rfl, rfl⟩
    · rw [hn] at ht; cases ht; exact (rd32_resultsKept 0x18 _).of_taken
    · exact absurd ha (hreset p)
  · exact absurd ht (hn t)

/-- Settles O58. -/
theorem resultsStayUntilTheNextAcceptance : Obligations.ResultsStayUntilTheNextAcceptance := by
  intro s t a rest he hs hreset hno ht
  rw [step_of_host_turn (turn_of_idle he hs)] at ht
  obtain ⟨hen, hst, hcs, hip, hic, hem⟩ := hostTurn_resultsKept he hreset hno ht
  exact ⟨hen.trans he, hst, hcs, hip, hic, hem⟩

end Sys2Proof.Machine
end

section
/-! PROOFS. What an instruction leaves unchanged (O53, O54), and what its results depend on (O55). Both follow a command body
through the same stages: the cleared status and groups, `ip_parse`, the common header and class rule of `icmp_parse`, the end of
the command. The frame of each stage is said once; for O55 each stage is shown to keep two runs in agreement. -/

namespace Sys2Proof.Machine

/-! ## Frames of the stages -/

/-- A state that differs in `STATUS`, the results and the engine alone has the same inputs. -/
theorem InputsKept.of_outside {s t : State}
    (h : { t with status := s.status, csumRes := s.csumRes, ip := s.ip, ic := s.ic, em := s.em, engine := s.engine } = s) :
    InputsKept s t :=
  ⟨(congrArg State.pktLen h :), (congrArg State.argOff h :), (congrArg State.argLen h :), (congrArg State.pbufSize h :),
    (congrArg State.pbuf h :), (congrArg State.powerCycles h :), (congrArg State.host h :),
    fun a => (congrArg (State.byte · a) h :)⟩

theorem InputsKept.trans {s t u : State} (h : InputsKept s t) (h' : InputsKept t u) : InputsKept s u := by
  obtain ⟨hpkt, hoff, hlen, hsize, hbuf, hpow, hhost, hbyte⟩ := h
  obtain ⟨hpkt', hoff', hlen', hsize', hbuf', hpow', hhost', hbyte'⟩ := h'
  exact ⟨hpkt'.trans hpkt, hoff'.trans hoff, hlen'.trans hlen, hsize'.trans hsize, hbuf'.trans hbuf, hpow'.trans hpow,
    hhost'.trans hhost, fun a => (hbyte' a).trans (hbyte a)⟩

/-- What a command body keeps at each of its stages: the inputs and `S_BUSY_WR` (10_state.md R66). -/
structure BodyFrame (s t : State) : Prop where
  inputs : InputsKept s t
  sBusyWr : t.status.sBusyWr = s.status.sBusyWr

theorem BodyFrame.trans {s t u : State} (h : BodyFrame s t) (h' : BodyFrame t u) : BodyFrame s u :=
  ⟨h.inputs.trans h'.inputs, h'.sBusyWr.trans h.sBusyWr⟩

/-- Clearing `STATUS[15:0]` and zeroing groups is a stage of a body. -/
theorem BodyFrame.cleared (s : State) (ip : IpGroup) (ic : IcGroup) (em : EmGroup) :
    BodyFrame s { s with status := s.status.cleared, ip := ip, ic := ic, em := em } :=
  ⟨.of_outside rfl, rfl⟩

/-- What each of the four working commands does beside its results: it ends, and keeps its inputs and `S_BUSY_WR`
(10_state.md R66, 45_control_commands.md R262). -/
structure CommandFrame (s t : State) : Prop where
  body : BodyFrame s t
  engine : t.engine = .idle
  done : t.status.done = true

theorem BodyFrame.finish {s t : State} (h : BodyFrame s t) (o : CmdOutcome) : CommandFrame s (t.finish o) :=
  ⟨⟨h.inputs, h.sBusyWr⟩, rfl, rfl⟩

theorem BodyFrame.raise {s t : State} (h : BodyFrame s t) (e : ErrCode) : CommandFrame s (t.raise e) :=
  ⟨⟨h.inputs, h.sBusyWr⟩, rfl, rfl⟩

/-- A body's end after a stage of it. -/
theorem BodyFrame.thenCommand {s t u : State} (h : BodyFrame s t) (h' : CommandFrame t u) : CommandFrame s u :=
  ⟨h.trans h'.body, h'.engine, h'.done⟩

/-- What `ip_parse` leaves unchanged: all but the IP group and `W_LEN_MISMATCH` (42_ipv4_parse.md R191). -/
structure IpFrame (s t : State) : Prop where
  body : BodyFrame s t
  csumRes : t.csumRes = s.csumRes
  ic : t.ic = s.ic
  em : t.em = s.em

/-- The state in which a guarded step of a parse ends, whether it raises or not. -/
def Parsed.state {α : Type} : Parsed α → State
  | .value _ s => s
  | .raised _ s => s

theorem ipParse_frame (s : State) : IpFrame s (ipParse s).state := by
  rcases ipParse_cases s with ⟨-, h⟩ | ⟨-, -, h⟩ | ⟨-, -, -, h⟩ | ⟨-, -, -, h⟩ <;> rw [h]
  · exact ⟨⟨.of_outside rfl, rfl⟩, rfl, rfl, rfl⟩
  · exact ⟨⟨.of_outside rfl, rfl⟩, rfl, rfl, rfl⟩
  · exact ⟨⟨.of_outside rfl, rfl⟩, rfl, rfl, rfl⟩
  · unfold State.warnLenMismatch
    split <;> exact ⟨⟨.of_outside rfl, rfl⟩, rfl, rfl, rfl⟩

/-- What the end of `icmp_parse` leaves unchanged (43_icmp_classify.md R204). -/
structure IcmpFrame (s t : State) : Prop where
  command : CommandFrame s t
  csumRes : t.csumRes = s.csumRes
  ip : t.ip = s.ip

theorem runClass_icmpFrame (c : IcmpClass) (code : Byte) (known : Bool) (s : State) :
    IcmpFrame s (runClass c code known s) := by
  obtain ⟨hrest, hengine, -, ⟨hdone, -, -, hbusyWr⟩, -, -⟩ := runClass_frame c code known s
  have hinputs : InputsKept s (runClass c code known s) :=
    .of_outside (congrArg (fun u : State => { u with csumRes := s.csumRes, ip := s.ip }) hrest)
  exact ⟨⟨⟨hinputs, hbusyWr⟩, hengine, hdone⟩, (congrArg State.csumRes hrest :), (congrArg State.ip hrest :)⟩

theorem icmpParse_frame (off lim : Nat) (s : State) : IcmpFrame s (icmpParse off lim s) := by
  unfold icmpParse
  rcases icmpHeader_cases off lim s with ⟨-, h⟩ | ⟨-, h⟩ <;> rw [h]
  · exact ⟨BodyFrame.raise ⟨.of_outside rfl, rfl⟩ _, rfl, rfl⟩
  · obtain ⟨hcommand, hcsum, hip⟩ := runClass_icmpFrame _ _ _ _
    refine ⟨BodyFrame.thenCommand ?_ hcommand, hcsum, hip⟩
    exact ⟨.of_outside rfl, rfl⟩

/-! ## Frames of the commands -/

theorem execCsum_frame (s : State) :
    ∃ t, execCsum s = .next t ∧ CommandFrame s t ∧ t.ip = s.ip ∧ t.ic = s.ic ∧ t.em = s.em := by
  unfold execCsum
  split <;> exact ⟨_, rfl, ⟨⟨.of_outside rfl, rfl⟩, rfl, rfl⟩, rfl, rfl, rfl⟩

theorem execParseIp_frame (s : State) :
    ∃ t, execParseIp s = .next t ∧ CommandFrame s t ∧ t.csumRes = s.csumRes ∧ t.ic = s.ic ∧ t.em = s.em := by
  have hframe := ipParse_frame s.beginCommand.zeroIp
  unfold execParseIp
  split
  all_goals
    rename_i hp
    rw [hp] at hframe
    obtain ⟨hbody, hcsum, hic, hem⟩ := hframe
    have hstage := (BodyFrame.cleared s {} s.ic s.em).trans hbody
  · exact ⟨_, rfl, hstage.finish .ok, hcsum, hic, hem⟩
  · exact ⟨_, rfl, hstage.raise _, hcsum, hic, hem⟩

theorem execParseIcmp_frame (s : State) :
    ∃ t, execParseIcmp s = .next t ∧ CommandFrame s t ∧ t.csumRes = s.csumRes ∧ t.ip = s.ip := by
  have hstart := BodyFrame.cleared s s.ip {} {}
  unfold execParseIcmp
  split
  · obtain ⟨hcommand, hcsum, hip⟩ := icmpParse_frame s.argOff.toNat (s.argOff.toNat + s.argLen.toNat) s.beginCommand.zeroIcEm
    exact ⟨_, rfl, hstart.thenCommand hcommand, hcsum, hip⟩
  · exact ⟨_, rfl, hstart.raise .range, rfl, rfl⟩

theorem execClassify_frame (s : State) :
    ∃ t, execClassify s = .next t ∧ CommandFrame s t ∧ t.csumRes = s.csumRes := by
  have hframe := ipParse_frame s.beginCommand.zeroIp.zeroIcEm
  unfold execClassify
  split
  all_goals
    rename_i hp
    rw [hp] at hframe
    obtain ⟨hbody, hcsum, -, -⟩ := hframe
    have hstage := (BodyFrame.cleared s {} {} {}).trans hbody
  · exact ⟨_, rfl, hstage.raise _, hcsum⟩
  · split
    · exact ⟨_, rfl, hstage.raise .notIcmp, hcsum⟩
    · obtain ⟨hcommand, hcsum', -⟩ := icmpParse_frame _ _ _
      exact ⟨_, rfl, hstage.thenCommand hcommand, hcsum'.trans hcsum⟩

/-- Settles O53: the commands by their frames, every row of the decoder by the frame of a classified command. -/
theorem everyInstructionCompletesAndKeepsInputs : Obligations.EveryInstructionCompletesAndKeepsInputs := by
  intro i s
  cases i
  case nop => exact ⟨s, rfl, .of_outside rfl⟩
  case clear => exact ⟨_, rfl, .of_outside rfl⟩
  case csum => obtain ⟨t, ht, hc, -⟩ := execCsum_frame s; exact ⟨t, ht, hc.body.inputs⟩
  case parseIp => obtain ⟨t, ht, hc, -⟩ := execParseIp_frame s; exact ⟨t, ht, hc.body.inputs⟩
  case parseIcmp => obtain ⟨t, ht, hc, -⟩ := execParseIcmp_frame s; exact ⟨t, ht, hc.body.inputs⟩
  case classify => obtain ⟨t, ht, hc, -⟩ := execClassify_frame s; exact ⟨t, ht, hc.body.inputs⟩
  all_goals exact ⟨_, rfl, (runClass_icmpFrame _ _ _ s).command.body.inputs⟩

/-- Settles O54. -/
theorem commandsKeepGroupsTheyDoNotOwn : Obligations.CommandsKeepGroupsTheyDoNotOwn := by
  intro s
  refine ⟨?_, ?_, ?_, ?_⟩
  · obtain ⟨t, ht, hc, hip, hic, hem⟩ := execCsum_frame s
    exact ⟨t, ht, hip, hic, hem, hc.body.sBusyWr, hc.engine, hc.done⟩
  · obtain ⟨t, ht, hc, hcsum, hic, hem⟩ := execParseIp_frame s
    exact ⟨t, ht, hcsum, hic, hem, hc.body.sBusyWr, hc.engine, hc.done⟩
  · obtain ⟨t, ht, hc, hcsum, hip⟩ := execParseIcmp_frame s
    exact ⟨t, ht, hcsum, hip, hc.body.sBusyWr, hc.engine, hc.done⟩
  · obtain ⟨t, ht, hc, hcsum⟩ := execClassify_frame s
    exact ⟨t, ht, hcsum, hc.body.sBusyWr, hc.engine, hc.done⟩

end Sys2Proof.Machine
end

section
/-! PROOFS. What a command's results depend on (O55): two runs that agree in the inputs stay in agreement through every stage of
a command body, whatever the two machines held elsewhere. -/

namespace Sys2Proof.Machine

/-! ## Reads of the buffer below `PKT_LEN` -/

/-- Two command bodies in step with each other: the same inputs, and the same `STATUS[15:0]` so far. -/
structure SameRun (s t : State) : Prop where
  inputs : SameInputs s t
  status : SameLowStatus s t

theorem SameRun.pktLen {s t : State} (h : SameRun s t) : s.pktLen = t.pktLen := h.inputs.1

theorem SameRun.byte {s t : State} (h : SameRun s t) {i : Nat} (hi : i < s.pktLen.toNat) : s.byte i = t.byte i := by
  obtain ⟨⟨-, -, -, hbyte⟩, -⟩ := h
  exact hbyte i hi

theorem SameRun.be16 {s t : State} (h : SameRun s t) {i : Nat} (hi : i + 2 ≤ s.pktLen.toNat) : s.be16 i = t.be16 i := by
  rw [State.be16, State.be16, h.byte (i := i) (by omega), h.byte (i := i + 1) (by omega)]

theorem SameRun.be32 {s t : State} (h : SameRun s t) {i : Nat} (hi : i + 4 ≤ s.pktLen.toNat) : s.be32 i = t.be32 i := by
  rw [State.be32, State.be32, h.byte (i := i) (by omega), h.byte (i := i + 1) (by omega), h.byte (i := i + 2) (by omega),
    h.byte (i := i + 3) (by omega)]

theorem SameRun.bytes {s t : State} (h : SameRun s t) {off len : Nat} (hl : off + len ≤ s.pktLen.toNat) :
    s.bytes off len = t.bytes off len := by
  refine List.map_congr_left fun i hi => h.byte ?_
  have := List.mem_range'_1.1 hi
  omega

/-! ## Stages -/

/-- Two command bodies start in step: `STATUS[15:0]` is cleared (log 12). -/
theorem SameInputs.beginCommand {s t : State} (h : SameInputs s t) : SameRun s.beginCommand t.beginCommand := ⟨h, rfl⟩

/-- Two runs in step that also hold the same IP group. -/
structure SameIpRun (s t : State) : Prop where
  run : SameRun s t
  ip : s.ip = t.ip

/-- Two runs in step that also hold the same IC and EM groups. -/
structure SameIcmpRun (s t : State) : Prop where
  run : SameRun s t
  ic : s.ic = t.ic
  em : s.em = t.em

/-- The same change of a flag of `STATUS[15:0]` keeps two runs in step. -/
theorem SameRun.with_status {s t : State} (h : SameRun s t) (f : Status → Status)
    (hf : ∀ st : Status, { f st with sBusyWr := false } = f { st with sBusyWr := false }) :
    SameRun { s with status := f s.status } { t with status := f t.status } := by
  refine ⟨h.inputs, ?_⟩
  show ({ f s.status with sBusyWr := false } : Status) = { f t.status with sBusyWr := false }
  rw [hf, hf]
  exact congrArg f h.status

theorem SameRun.finish {s t : State} (h : SameRun s t) (o : CmdOutcome) : SameLowStatus (s.finish o) (t.finish o) :=
  (h.with_status (fun st => { st with outcome := o, err := none, done := true }) fun _ => rfl).status

theorem SameRun.raise {s t : State} (h : SameRun s t) (e : ErrCode) : SameLowStatus (s.raise e) (t.raise e) :=
  (h.with_status (fun st => { st with outcome := .error, err := some e, done := true }) fun _ => rfl).status

/-! ## `ip_parse` -/

theorem SameIpRun.warnLenMismatch {s t : State} (h : SameIpRun s t) (c : Bool) :
    SameIpRun (s.warnLenMismatch c) (t.warnLenMismatch c) := by
  cases c with
  | false => exact h
  | true => exact ⟨h.run.with_status (fun st => { st with wLenMismatch := true }) fun _ => rfl, h.ip⟩

/-- The header at index 0 is read below `PKT_LEN` (42_ipv4_parse.md R181). -/
theorem SameRun.ipGroupOf {s t : State} (h : SameRun s t) (hl : 20 ≤ s.pktLen.toNat) : s.ipGroupOf = t.ipGroupOf := by
  simp only [State.ipGroupOf, State.effectiveLength, ← h.pktLen, h.be16 (i := 2) (by omega), h.be32 (i := 0) (by omega),
    h.be32 (i := 4) (by omega), h.be32 (i := 8) (by omega), h.be32 (i := 12) (by omega), h.be32 (i := 16) (by omega),
    h.byte (i := 0) (by omega)]

/-- Two runs of `ip_parse` that end alike: the same error, or the same header, whose effective length is inside the packet. -/
inductive SameIpParse : Parsed IpHeader → Parsed IpHeader → Prop
  | value {g : IpHeader} {s t : State} (run : SameIpRun s t) (fits : g.efflen ≤ s.pktLen.toNat) :
    SameIpParse (.value g s) (.value g t)
  | raised {e : ErrCode} {s t : State} (run : SameIpRun s t) : SameIpParse (.raised e s) (.raised e t)

theorem SameIpRun.ipParse {s t : State} (h : SameIpRun s t) : SameIpParse (ipParse s) (ipParse t) := by
  have hrun := h.run
  have hlen : s.pktLen.toNat = t.pktLen.toNat := congrArg BitVec.toNat hrun.pktLen
  unfold Machine.ipParse
  rw [← hlen]
  by_cases hl : s.pktLen.toNat < ipMinHdr
  · rw [if_pos hl, if_pos hl]
    exact .raised h
  have hlong : 20 ≤ s.pktLen.toNat := Nat.not_lt.1 hl
  have heff : s.effectiveLength = t.effectiveLength := by
    rw [State.effectiveLength, State.effectiveLength, ← hrun.pktLen, hrun.be16 (by omega)]
  have hip : SameIpRun { s with ip := s.ipGroupOf } { t with ip := t.ipGroupOf } :=
    ⟨⟨hrun.inputs, hrun.status⟩, hrun.ipGroupOf hlong⟩
  rw [if_neg hl, if_neg hl, ← hrun.byte (i := 0) (by omega), ← hrun.byte (i := 9) (by omega), ← hrun.be16 (i := 2) (by omega),
    ← heff]
  dsimp only
  split
  · exact .raised hip
  · split
    · exact .raised hip
    · exact .value (hip.warnLenMismatch _) (by simp [State.effectiveLength])

/-! ## `emb_parse` and the class rules -/

theorem SameIcmpRun.with_ic {s t : State} (h : SameIcmpRun s t) (g : IcGroup) :
    SameIcmpRun { s with ic := g } { t with ic := g } :=
  ⟨⟨h.run.inputs, h.run.status⟩, rfl, h.em⟩

theorem SameIcmpRun.with_em {s t : State} (h : SameIcmpRun s t) (g : EmGroup) :
    SameIcmpRun { s with em := g } { t with em := g } :=
  ⟨⟨h.run.inputs, h.run.status⟩, h.ic, rfl⟩

theorem SameIcmpRun.with_status {s t : State} (h : SameIcmpRun s t) (f : Status → Status)
    (hf : ∀ st : Status, { f st with sBusyWr := false } = f { st with sBusyWr := false }) :
    SameIcmpRun { s with status := f s.status } { t with status := f t.status } :=
  ⟨h.run.with_status f hf, h.ic, h.em⟩

theorem SameIcmpRun.warnEmbBad {s t : State} (h : SameIcmpRun s t) : SameIcmpRun s.warnEmbBad t.warnEmbBad :=
  h.with_status (fun st => { st with wEmbBad := true }) fun _ => rfl

theorem SameIcmpRun.warnFieldTrunc {s t : State} (h : SameIcmpRun s t) : SameIcmpRun s.warnFieldTrunc t.warnFieldTrunc :=
  h.with_status (fun st => { st with wFieldTrunc := true }) fun _ => rfl

/-- An embedded datagram inside the packet is read below `PKT_LEN` (44_embedded_datagram.md R251). -/
theorem SameIcmpRun.embParse {s t : State} (h : SameIcmpRun s t) (e : Nat) {lim : Nat} (hlim : lim ≤ s.pktLen.toNat) :
    SameIcmpRun (embParse e lim s) (embParse e lim t) := by
  have hrun := h.run
  unfold Machine.embParse
  by_cases hl : remaining e lim < ipMinHdr
  · rw [if_pos hl, if_pos hl]
    exact h.warnEmbBad
  have hlong : e + 20 ≤ lim := by
    simp only [remaining, ipMinHdr] at hl
    omega
  have hheader : s.emHeaderOf e = t.emHeaderOf e := by
    rw [State.emHeaderOf, State.emHeaderOf, h.em, hrun.byte (i := e) (by omega), hrun.byte (i := e + 9) (by omega),
      hrun.be32 (i := e + 12) (by omega), hrun.be32 (i := e + 16) (by omega)]
  have hem := h.with_em (s.emHeaderOf e)
  rw [if_neg hl, if_neg hl, ← hrun.byte (i := e) (by omega), ← hrun.byte (i := e + 9) (by omega), ← hheader]
  dsimp only
  split
  · exact h.warnEmbBad
  split
  · split
    case isTrue hports =>
      simp only [portBytes] at hports
      unfold State.withPorts
      rw [hem.run.be16 (i := e + headerBytes (s.byte e)) (Nat.le_trans (by omega) hlim),
        hem.run.be16 (i := e + headerBytes (s.byte e) + 2) (Nat.le_trans (by omega) hlim)]
      exact hem.with_em _
    case isFalse => exact hem.warnEmbBad
  · exact hem

theorem SameIcmpRun.parseEmbedded {s t : State} (h : SameIcmpRun s t) (hlim : s.ic.limit ≤ s.pktLen.toNat) :
    SameIcmpRun s.parseEmbedded t.parseEmbedded := by
  unfold State.parseEmbedded
  rw [← h.ic]
  exact h.embParse _ hlim

/-- The class rules of a message inside the packet read nothing above `PKT_LEN` (43_icmp_classify.md R203). -/
theorem SameIcmpRun.classRule {s t : State} (h : SameIcmpRun s t) (hlim : s.ic.limit ≤ s.pktLen.toNat) (c : IcmpClass)
    (code : Byte) : SameIcmpRun (classRule c code s).1 (classRule c code t).1 := by
  have hic := h.ic
  cases c with
  | echoReply =>
    simp only [Machine.classRule, ruleEchoReply, ← hic]
    split <;> exact h.with_ic _
  | echoRequest =>
    simp only [Machine.classRule, ruleEchoRequest, ← hic]
    exact h.with_ic _
  | destinationUnreachable =>
    simp only [Machine.classRule, ruleDestinationUnreachable, ← hic]
    split
    · exact (h.with_ic { s.ic with mtu := lowerHalf s.ic.w1 }).parseEmbedded hlim
    · exact h.parseEmbedded hlim
  | sourceQuench | timeExceeded => exact h.parseEmbedded hlim
  | redirect =>
    simp only [Machine.classRule, ruleRedirect, ← hic]
    exact (h.with_ic { s.ic with gateway := s.ic.w1 }).parseEmbedded hlim
  | parameterProblem =>
    simp only [Machine.classRule, ruleParameterProblem, ← hic]
    exact (h.with_ic { s.ic with pointer := byte3 s.ic.w1 }).parseEmbedded hlim
  | routerAdvertisement =>
    simp only [Machine.classRule, ruleRouterAdvertisement, ← hic]
    exact h.with_ic _
  | addressMaskReply =>
    simp only [Machine.classRule, ruleAddressMaskReply, ← hic]
    split
    case isTrue hmask =>
      simp only [icmpMinHdr, IcGroup.limit] at hmask hlim
      rw [h.run.be32 (by simp only [icmpMinHdr]; omega)]
      exact h.with_ic _
    case isFalse => exact h.warnFieldTrunc
  | noMessage | routerSolicitation | timestamp | timestampReply | infoRequest | infoReply | addressMaskRequest | unknown =>
    exact h

theorem SameIcmpRun.warnUnkType {s t : State} (h : SameIcmpRun s t) (c : Bool) :
    SameIcmpRun (s.warnUnkType c) (t.warnUnkType c) := by
  cases c with
  | false => exact h
  | true => exact h.with_status (fun st => { st with wUnkType := true }) fun _ => rfl

theorem SameIcmpRun.warnUnkCode {s t : State} (h : SameIcmpRun s t) (c : Bool) :
    SameIcmpRun (s.warnUnkCode c) (t.warnUnkCode c) := by
  cases c with
  | false => exact h
  | true => exact h.with_status (fun st => { st with wUnkCode := true }) fun _ => rfl

theorem SameIcmpRun.classified {s t : State} (h : SameIcmpRun s t) (c : IcmpClass) (known : Bool) :
    SameIcmpRun (s.classified c known) (t.classified c known) := by
  unfold State.classified
  rw [← h.ic]
  exact ((h.with_ic { s.ic with cls := c, codeKnown := known }).warnUnkType _).warnUnkCode _

/-- Two commands ended with the same results of an ICMP parse. -/
structure SameIcmpEnd (s t : State) : Prop where
  status : SameLowStatus s t
  ic : s.ic = t.ic
  em : s.em = t.em

theorem SameIcmpRun.raise {s t : State} (h : SameIcmpRun s t) (e : ErrCode) : SameIcmpEnd (s.raise e) (t.raise e) :=
  ⟨h.run.raise e, h.ic, h.em⟩

theorem SameIcmpRun.runClass {s t : State} (h : SameIcmpRun s t) (hlim : s.ic.limit ≤ s.pktLen.toNat) (c : IcmpClass)
    (code : Byte) (known : Bool) : SameIcmpEnd (runClass c code known s) (runClass c code known t) := by
  have hc := h.classified c known
  have hr := hc.classRule (by simpa [IcGroup.limit] using hlim) c code
  have hout : (Machine.classRule c code (s.classified c known)).2 = (Machine.classRule c code (t.classified c known)).2 := by
    rw [classRule_outcome, classRule_outcome, hc.ic]
  unfold Machine.runClass
  dsimp only
  rw [← hout]
  exact ⟨hr.run.finish _, hr.ic, hr.em⟩

/-- `icmp_parse` on a range inside the packet reads nothing above `PKT_LEN` (43_icmp_classify.md R204). -/
theorem SameIcmpRun.icmpParse {s t : State} (h : SameIcmpRun s t) (off : Nat) {lim : Nat} (hlim : lim ≤ s.pktLen.toNat) :
    SameIcmpEnd (icmpParse off lim s) (icmpParse off lim t) := by
  have hpkt := s.pktLen.isLt
  unfold Machine.icmpParse icmpHeader
  by_cases hl : remaining off lim < icmpMinHdr
  · rw [if_pos hl, if_pos hl]
    exact h.raise .icmpShort
  have hlong : off + 8 ≤ lim := by
    simp only [remaining, icmpMinHdr] at hl
    omega
  rw [if_neg hl, if_neg hl, ← h.ic, ← h.run.be32 (i := off) (by omega), ← h.run.be32 (i := off + 4) (by omega)]
  dsimp only [dispatchClass]
  apply SameIcmpRun.runClass
  · exact ⟨⟨h.run.inputs, h.run.status⟩, rfl, h.em⟩
  · simp only [IcGroup.limit, remaining, BitVec.toNat_ofNat]
    omega

/-! ## The commands -/

theorem SameInputs.rangeLegal {s t : State} (h : SameInputs s t) : s.rangeLegal = t.rangeLegal := by
  obtain ⟨hpkt, hoff, hlen, -⟩ := h
  rw [State.rangeLegal, State.rangeLegal, hpkt, hoff, hlen]

theorem SameInputs.execCsum {s t s' t' : State} (h : SameInputs s t) (hs : execCsum s = .next s')
    (ht : execCsum t = .next t') : SameLowStatus s' t' ∧ s'.csumRes = t'.csumRes := by
  have hrun := h.beginCommand
  obtain ⟨-, hoff, hlen, -⟩ := id h
  unfold Machine.execCsum at hs ht
  rw [← h.rangeLegal, ← hoff, ← hlen] at ht
  split at hs
  case isTrue hr =>
    rw [if_pos hr] at ht
    cases hs
    cases ht
    exact ⟨hrun.finish .ok, congrArg checksum (hrun.bytes (of_decide_eq_true hr))⟩
  case isFalse hr =>
    rw [if_neg hr] at ht
    cases hs
    cases ht
    exact ⟨hrun.raise .range, rfl⟩

theorem SameInputs.execParseIp {s t s' t' : State} (h : SameInputs s t) (hs : execParseIp s = .next s')
    (ht : execParseIp t = .next t') : SameLowStatus s' t' ∧ s'.ip = t'.ip := by
  have hstart : SameIpRun s.beginCommand.zeroIp t.beginCommand.zeroIp := ⟨⟨h, rfl⟩, rfl⟩
  have hp := hstart.ipParse
  unfold Machine.execParseIp at hs ht
  generalize ipParse s.beginCommand.zeroIp = p at hp hs
  generalize ipParse t.beginCommand.zeroIp = q at hp ht
  cases hp with
  | value hr => cases hs; cases ht; exact ⟨hr.run.finish .ok, hr.ip⟩
  | raised hr => cases hs; cases ht; exact ⟨hr.run.raise _, hr.ip⟩

theorem SameInputs.execParseIcmp {s t s' t' : State} (h : SameInputs s t) (hs : execParseIcmp s = .next s')
    (ht : execParseIcmp t = .next t') : SameIcmpEnd s' t' := by
  have hstart : SameIcmpRun s.beginCommand.zeroIcEm t.beginCommand.zeroIcEm := ⟨⟨h, rfl⟩, rfl, rfl⟩
  obtain ⟨-, hoff, hlen, -⟩ := id h
  unfold Machine.execParseIcmp at hs ht
  rw [← h.rangeLegal, ← hoff, ← hlen] at ht
  split at hs
  case isTrue hr =>
    rw [if_pos hr] at ht
    cases hs
    cases ht
    exact hstart.icmpParse _ (of_decide_eq_true hr)
  case isFalse hr =>
    rw [if_neg hr] at ht
    cases hs
    cases ht
    exact hstart.raise .range

theorem SameInputs.execClassify {s t s' t' : State} (h : SameInputs s t) (hs : execClassify s = .next s')
    (ht : execClassify t = .next t') : SameIcmpEnd s' t' ∧ s'.ip = t'.ip := by
  have hstart : SameIpRun s.beginCommand.zeroIp.zeroIcEm t.beginCommand.zeroIp.zeroIcEm := ⟨⟨h, rfl⟩, rfl⟩
  have hp := hstart.ipParse
  obtain ⟨-, -, hsic, hsem⟩ := ipParse_frame s.beginCommand.zeroIp.zeroIcEm
  obtain ⟨-, -, htic, htem⟩ := ipParse_frame t.beginCommand.zeroIp.zeroIcEm
  unfold Machine.execClassify at hs ht
  generalize ipParse s.beginCommand.zeroIp.zeroIcEm = p at hp hs hsic hsem
  generalize ipParse t.beginCommand.zeroIp.zeroIcEm = q at hp ht htic htem
  cases hp with
  | raised hr =>
    cases hs
    cases ht
    exact ⟨SameIcmpRun.raise ⟨hr.run, hsic.trans htic.symm, hsem.trans htem.symm⟩ _, hr.ip⟩
  | value hr hfits =>
    have hicmp := SameIcmpRun.mk hr.run (hsic.trans htic.symm) (hsem.trans htem.symm)
    dsimp only at hs ht
    split at hs
    case isTrue hne =>
      rw [if_pos hne] at ht
      cases hs
      cases ht
      exact ⟨hicmp.raise .notIcmp, hr.ip⟩
    case isFalse hne =>
      rw [if_neg hne] at ht
      cases hs
      cases ht
      refine ⟨hicmp.icmpParse _ hfits, ?_⟩
      rw [(icmpParse_frame _ _ _).ip, (icmpParse_frame _ _ _).ip, hr.ip]

/-- Settles O55, command by command. -/
theorem resultsDependOnInputsAlone : Obligations.ResultsDependOnInputsAlone := by
  intro s t h
  refine ⟨fun s' t' => h.execCsum, fun s' t' => h.execParseIp, fun s' t' hs ht => ?_, fun s' t' hs ht => ?_,
    fun s' t' hs ht => ?_⟩
  · obtain ⟨hst, hic, hem⟩ := h.execParseIcmp hs ht
    exact ⟨hst, hic, hem⟩
  · obtain ⟨⟨hst, hic, hem⟩, hip⟩ := h.execClassify hs ht
    exact ⟨hst, hip, hic, hem⟩
  · cases hs
    cases ht
    exact ⟨rfl, rfl, rfl, rfl, rfl⟩

end Sys2Proof.Machine
end

section
/-! PROOFS. Host accesses to the block's memory: what a write does while a command is pending (O40) and while none is (O41),
what `STATUS` then shows (O47), that no action of the host reaches the results of a pending command (O57), and where the machine
stops (O60). -/

namespace Sys2Proof.Machine

/-! ## Byte writes -/

theorem hostTurn_wr8 {s : State} {i : Nat} (hi : i < s.pbufSize) (b : Byte) (rest : List HostAction) :
    hostTurn (.wr8 i b) rest s = .next (wr8 i b (s.taken rest)) :=
  onBuffer_of_lt hi _

/-- A byte write while a command is pending is ignored (70_reset_and_hazards.md R321). -/
theorem wr8_busy {s : State} (hb : s.busy = true) (i : Nat) (b : Byte) : wr8 i b s = s.ignoredWrite := if_pos hb

/-- A byte write while no command is pending is stored (20_memory.md R73). -/
theorem wr8_idle {s : State} (he : s.engine = .idle) (i : Nat) (b : Byte) : wr8 i b s = s.setByte i b := by
  rw [wr8, State.busy_of_idle he]
  rfl

theorem State.busy_of_holding {s : State} {w : Word} (he : s.engine = .holding w) : s.busy = true := by
  simp [State.busy, he]

theorem step_wr8_holding {s : State} {i : Nat} {b : Byte} {w : Word} {rest : List HostAction} (he : s.engine = .holding w)
    (hs : s.host.script = .wr8 i b :: rest) (hd : s.host.delay ≠ 0) (hi : i < s.pbufSize) :
    step s = .next { s with status := { s.status with sBusyWr := true }, host := (s.taken rest).host } := by
  rw [step_of_host_turn (turn_of_holding he hs hd), hostTurn_wr8 hi, wr8_busy (State.busy_of_holding (s := s.taken rest) he)]
  rfl

theorem step_wr8_idle {s : State} {i : Nat} {b : Byte} {rest : List HostAction} (he : s.engine = .idle)
    (hs : s.host.script = .wr8 i b :: rest) (hi : i < s.pbufSize) : step s = .next ((s.taken rest).setByte i b) := by
  rw [step_of_host_turn (turn_of_idle he hs), hostTurn_wr8 hi, wr8_idle (s := s.taken rest) he]

/-- Settles O40, for a register write and for a byte write. -/
theorem writesWhileBusyOnlySetTheStickyFlag : Obligations.WritesWhileBusyOnlySetTheStickyFlag := by
  rintro s v a rest he hs hd hlegal (⟨off, x, rfl⟩ | ⟨i, b, rfl⟩)
  · obtain ⟨hl, h4⟩ := hlegal
    exact step_wr32_holding he hs hd hl h4
  · exact step_wr8_holding he hs hd hlegal

/-- Settles O41. -/
theorem bufferWriteStoresOneByte : Obligations.BufferWriteStoresOneByte := by
  intro s i b rest he hs hi
  exact ⟨_, step_wr8_idle he hs hi, State.setByte_byte i b (s.taken rest), rfl⟩

/-! ## `STATUS` while a command is pending -/

/-- Settles O47: in a good state `STATUS[15:0]` is as the acceptance cleared it (45_control_commands.md R261). -/
theorem busyStatusShowsNothingElse : Obligations.BusyStatusShowsNothingElse := by
  intro s v hgood he
  obtain ⟨-, heng, -⟩ := hgood
  rw [EngineInv, he] at heng
  obtain ⟨-, hcleared⟩ := heng
  rw [Status.cleared] at hcleared
  generalize s.status.sBusyWr = w at hcleared ⊢
  rw [statusWord, State.busy_of_holding he, hcleared]
  cases w <;> rfl

/-! ## Host actions beside a pending command -/

/-- The block is as before but for `S_BUSY_WR`; the host may have gone on. -/
def SameBlock (s t : State) : Prop :=
  ∃ (w : Bool) (h : HostAgent), t = { s with status := { s.status with sBusyWr := w }, host := h }

theorem SameBlock.of_host (s : State) (h : HostAgent) : SameBlock s { s with host := h } := ⟨s.status.sBusyWr, h, rfl⟩

theorem SameBlock.ignoredWrite (s : State) : SameBlock s s.ignoredWrite := ⟨true, s.host, rfl⟩

/-- Taking an action from the script is the host's own affair. -/
theorem SameBlock.of_taken {rest : List HostAction} {s t : State} (h : SameBlock (s.taken rest) t) : SameBlock s t := h

theorem rd32_sameBlock (off : Nat) (s : State) : SameBlock s (rd32 off s) := by
  rw [rd32_eq]
  exact .of_host s _

/-- The only thing a host action other than a reset does to a busy block is to set `S_BUSY_WR` (20_memory.md R83,
70_reset_and_hazards.md R321). -/
theorem hostTurn_busy_sameBlock {a : HostAction} {rest : List HostAction} {s t : State} (hb : s.busy = true)
    (hreset : ∀ p, a ≠ .reset p) (ht : hostTurn a rest s = .next t) : SameBlock s t := by
  have hbusy : (s.taken rest).busy = true := hb
  rcases hostTurn_cases a rest s with ⟨-, hn⟩ | ⟨-, hn⟩
  · rcases hn with ⟨off, v, -, hn⟩ | ⟨off, -, hn⟩ | ⟨i, b, -, -, hn⟩ | ⟨i, -, -, hn⟩ | ⟨-, hn⟩ | ⟨i, -, hn⟩ | ⟨p, ha, -⟩
    · rw [hn, wr32_busy hbusy] at ht; cases ht; exact (SameBlock.ignoredWrite _).of_taken
    · rw [hn] at ht; cases ht; exact (rd32_sameBlock off _).of_taken
    · rw [hn, wr8_busy hbusy] at ht; cases ht; exact (SameBlock.ignoredWrite _).of_taken
    · rw [hn] at ht; cases ht; exact .of_host s _
    · rw [hn] at ht; cases ht; exact .of_host s _
    · rw [hn] at ht; cases ht; exact (rd32_sameBlock 0x18 _).of_taken
    · exact absurd ha (hreset p)
  · exact absurd ht (hn t)

theorem SameBlock.inputs {s t : State} (h : SameBlock s t) : SameInputs s t := by
  obtain ⟨w, a, rfl⟩ := h
  exact ⟨rfl, rfl, rfl, fun _ _ => rfl⟩

/-- Two states show the same results: `STATUS[15:0]`, `CSUM_RES` and the three groups. -/
structure SameResults (s t : State) : Prop where
  status : SameLowStatus s t
  csumRes : s.csumRes = t.csumRes
  ip : s.ip = t.ip
  ic : s.ic = t.ic
  em : s.em = t.em

theorem SameBlock.results {s t : State} (h : SameBlock s t) : SameResults s t := by
  obtain ⟨w, a, rfl⟩ := h
  exact ⟨rfl, rfl, rfl, rfl, rfl⟩

/-- What an outcome is known to answer holds of the state it answers. -/
theorem of_exists_next {P : State → Prop} {o : Outcome} {t : State} (h : ∃ u, o = .next u ∧ P u) (ht : o = .next t) : P t := by
  obtain ⟨u, hu, hp⟩ := h
  cases hu.symm.trans ht
  exact hp

/-- The instructions of the command decoder (30_encoding.md R103). -/
theorem decode_command_ok {v : Word} {i : Instr} (h : decode (.command v) = .ok i) :
    i = .nop ∨ i = .csum ∨ i = .parseIp ∨ i = .parseIcmp ∨ i = .classify ∨ i = .clear := by
  simp only [decode] at h
  rcases decodeCommand_cases v with ⟨-, hd⟩ | ⟨-, -, hd⟩ | ⟨-, hd⟩ | ⟨-, hd⟩ | ⟨-, hd⟩ | ⟨-, hd⟩ | ⟨-, hd⟩ | ⟨-, hd⟩
    <;> rw [hd] at h <;> cases h <;> simp

/-- A command run at two states of the same inputs and the same results leaves the same results: the registers it owns depend
on the inputs alone (10_state.md R65), the others it keeps (R66). -/
theorem SameResults.exec {s t s' t' : State} {v : Word} {i : Instr} (h : SameResults s t) (hin : SameInputs s t)
    (hi : decode (.command v) = .ok i) (hs : exec i s = .next s') (ht : exec i t = .next t') : SameResults s' t' := by
  obtain ⟨hcsum, hparseIp, hparseIcmp, hclassify, hclear⟩ := resultsDependOnInputsAlone s t hin
  rcases decode_command_ok hi with rfl | rfl | rfl | rfl | rfl | rfl
  · cases hs
    cases ht
    exact h
  · obtain ⟨hst, hres⟩ := hcsum s' t' hs ht
    obtain ⟨-, hsip, hsic, hsem⟩ := of_exists_next (execCsum_frame s) hs
    obtain ⟨-, htip, htic, htem⟩ := of_exists_next (execCsum_frame t) ht
    exact ⟨hst, hres, by rw [hsip, htip, h.ip], by rw [hsic, htic, h.ic], by rw [hsem, htem, h.em]⟩
  · obtain ⟨hst, hip⟩ := hparseIp s' t' hs ht
    obtain ⟨-, hsc, hsic, hsem⟩ := of_exists_next (execParseIp_frame s) hs
    obtain ⟨-, htc, htic, htem⟩ := of_exists_next (execParseIp_frame t) ht
    exact ⟨hst, by rw [hsc, htc, h.csumRes], hip, by rw [hsic, htic, h.ic], by rw [hsem, htem, h.em]⟩
  · obtain ⟨hst, hic, hem⟩ := hparseIcmp s' t' hs ht
    obtain ⟨-, hsc, hsip⟩ := of_exists_next (execParseIcmp_frame s) hs
    obtain ⟨-, htc, htip⟩ := of_exists_next (execParseIcmp_frame t) ht
    exact ⟨hst, by rw [hsc, htc, h.csumRes], by rw [hsip, htip, h.ip], hic, hem⟩
  · obtain ⟨hst, hip, hic, hem⟩ := hclassify s' t' hs ht
    obtain ⟨-, hsc⟩ := of_exists_next (execClassify_frame s) hs
    obtain ⟨-, htc⟩ := of_exists_next (execClassify_frame t) ht
    exact ⟨hst, by rw [hsc, htc, h.csumRes], hip, hic, hem⟩
  · obtain ⟨hst, hcsumRes, hip, hic, hem⟩ := hclear s' t' hs ht
    exact ⟨hst, hcsumRes, hip, hic, hem⟩

/-- Settles O57: the action changes nothing of the block but `S_BUSY_WR`, which no command reads. -/
theorem hostActionsWhileBusyDoNotChangeTheResult : Obligations.HostActionsWhileBusyDoNotChangeTheResult := by
  intro s t v a rest he hturn hreset ht
  rw [step_of_host_turn hturn] at ht
  have hblock := hostTurn_busy_sameBlock (State.busy_of_holding he) hreset ht
  have hin := hblock.inputs
  have hres := hblock.results
  have hengine : t.engine = s.engine := by
    obtain ⟨w, h, rfl⟩ := hblock
    rfl
  refine ⟨hengine.trans he, hin, hres.status, hres.csumRes.symm, hres.ip.symm, hres.ic.symm, hres.em.symm, ?_⟩
  intro i s' t' hi hs' ht'
  obtain ⟨hst, hcsumRes, hip, hic, hem⟩ := hres.exec hin hi hs' ht'
  exact ⟨hst, hcsumRes, hip, hic, hem⟩

/-! ## Where the machine stops -/

theorem wr32_goesOn (off : Nat) (v : Word) (s : State) : ∃ t, wr32 off v s = .next t := by
  rcases wr32_cases off v s with ⟨-, h⟩ | ⟨-, -, -, h⟩ | ⟨-, -, -, h⟩ | ⟨-, -, h⟩ <;> exact ⟨_, h⟩

theorem hostTurn_goesOn_iff (a : HostAction) (rest : List HostAction) (s : State) :
    (∃ t, hostTurn a rest s = .next t) ↔ LegalAction s.pbufSize a := by
  rcases hostTurn_cases a rest s with ⟨hl, hn⟩ | ⟨hl, hn⟩
  · refine iff_of_true ?_ hl
    rcases hn with ⟨off, v, -, hn⟩ | ⟨off, -, hn⟩ | ⟨i, b, -, -, hn⟩ | ⟨i, -, -, hn⟩ | ⟨-, hn⟩ | ⟨i, -, hn⟩ | ⟨p, -, hn⟩
      <;> rw [hn]
    · exact wr32_goesOn off v _
    all_goals exact ⟨_, rfl⟩
  · exact iff_of_false (fun ⟨t, ht⟩ => hn t ht) hl

/-- The engine never stops the machine: an instruction completes, and a reserved word ends in an error that is a next state
(43_icmp_classify.md R232, R233; 45_control_commands.md R267). -/
theorem step_goesOn_of_engine {s : State} {w : TableWord} (h : turn s = .engine w) : ∃ t, step s = .next t := by
  rw [step, h]
  dsimp only
  cases decode w with
  | error r => exact ⟨s.completeReserved, rfl⟩
  | ok i =>
    obtain ⟨t, ht, -⟩ := everyInstructionCompletesAndKeepsInputs i s
    exact ⟨t, ht⟩

/-- Settles O60, by the agent that moves. -/
theorem stepStopsOnlyOutsideTheInterface : Obligations.StepStopsOnlyOutsideTheInterface := by
  intro s
  cases hturn : turn s with
  | nobody => exact iff_of_true ⟨s, by rw [step, hturn]⟩ nofun
  | engine w => exact iff_of_true (step_goesOn_of_engine hturn) nofun
  | host a rest =>
    rw [step_of_host_turn hturn, hostTurn_goesOn_iff]
    constructor
    · rintro hl a' rest' ⟨⟩
      exact hl
    · exact fun h => h a rest rfl

end Sys2Proof.Machine
end

section
/-! PROOFS. The two decoders and the encoder: each undoes the other (O1, O2), and only reserved command words are refused (O3,
O4). That a decoded key is encoded to itself follows from the other direction, because every key is an encoding. -/

namespace Sys2Proof

/-! ## Decoding what was encoded -/

/-- A code beyond a code table is none of the table's codes. -/
theorem code_ne_of_beyond {code n : Byte} {greatest : Nat} (h : greatest < code.toNat) (hn : n.toNat ≤ greatest) :
    code ≠ n := by
  rintro rfl
  omega

theorem decodeIcmp_destUnreach {code : Byte} (h : 5 < code.toNat) :
    decodeIcmp (icmpKeyOf 3 code) = .icmpDestinationUnreachable code := by
  have hne := fun n => code_ne_of_beyond (n := n) h
  rw [decodeIcmp_key, if_pos rfl]
  simp [hne]

theorem decodeIcmp_redirect {code : Byte} (h : 3 < code.toNat) : decodeIcmp (icmpKeyOf 5 code) = .icmpRedirect code := by
  have hne := fun n => code_ne_of_beyond (n := n) h
  rw [decodeIcmp_key, if_neg (by decide), if_pos rfl]
  simp [hne]

theorem decodeIcmp_timeExceeded {code : Byte} (h : 1 < code.toNat) :
    decodeIcmp (icmpKeyOf 11 code) = .icmpTimeExceeded code := by
  have hne := fun n => code_ne_of_beyond (n := n) h
  rw [decodeIcmp_key, if_neg (by decide), if_neg (by decide), if_pos rfl]
  simp [hne]

theorem decodeIcmp_unassigned {t : Byte} (h : t ∉ assignedTypes) (code : Byte) :
    decodeIcmp (icmpKeyOf t code) = .icmpUnknown t code := by
  simp only [assignedTypes, List.mem_cons, List.not_mem_nil, or_false, not_or] at h
  simp only [decodeIcmp_key, h, if_false]

/-- Settles O1, by the constructor: a row of a type alone or of every type needs that no earlier row takes its key. -/
theorem decodeEncodeRoundTrip : Obligations.DecodeEncodeRoundTrip := by
  intro i hwf
  cases i with
  | nop | csum | parseIp | parseIcmp | classify | clear => rfl
  | icmpDestinationUnreachable code => exact congrArg _ (decodeIcmp_destUnreach (of_decide_eq_true hwf))
  | icmpRedirect code => exact congrArg _ (decodeIcmp_redirect (of_decide_eq_true hwf))
  | icmpTimeExceeded code => exact congrArg _ (decodeIcmp_timeExceeded (of_decide_eq_true hwf))
  | icmpUnknown t code => exact congrArg _ (decodeIcmp_unassigned (by simpa [Instr.WellFormed] using hwf) code)
  | _ => exact congrArg _ (decodeIcmp_key _ _)

/-! ## Encoding what was decoded -/

/-- Every key is the encoding of a well-formed instruction (30_encoding.md R126). -/
theorem exists_encode_key (t code : Byte) : ∃ i : Instr, i.WellFormed = true ∧ encode i = .icmpKey (icmpKeyOf t code) := by
  by_cases ht : t ∈ assignedTypes
  case neg => exact ⟨.icmpUnknown t code, by simpa [Instr.WellFormed] using ht, rfl⟩
  simp only [assignedTypes, List.mem_cons, List.not_mem_nil, or_false] at ht
  rcases ht with rfl | rfl | rfl | rfl | rfl | rfl | rfl | rfl | rfl | rfl | rfl | rfl | rfl | rfl | rfl
  · exact ⟨.icmpEchoReply code, rfl, rfl⟩
  · have hcode : code = 0 ∨ code = 1 ∨ code = 2 ∨ code = 3 ∨ code = 4 ∨ code = 5 ∨ 5 < code.toNat := by bv_omega
    rcases hcode with rfl | rfl | rfl | rfl | rfl | rfl | h
    · exact ⟨.icmpDestUnreachNetwork, rfl, rfl⟩
    · exact ⟨.icmpDestUnreachHost, rfl, rfl⟩
    · exact ⟨.icmpDestUnreachProtocol, rfl, rfl⟩
    · exact ⟨.icmpDestUnreachPort, rfl, rfl⟩
    · exact ⟨.icmpDestUnreachNeedsFragment, rfl, rfl⟩
    · exact ⟨.icmpDestUnreachSourceRouteFailed, rfl, rfl⟩
    · exact ⟨.icmpDestinationUnreachable code, decide_eq_true h, rfl⟩
  · exact ⟨.icmpSourceQuench code, rfl, rfl⟩
  · have hcode : code = 0 ∨ code = 1 ∨ code = 2 ∨ code = 3 ∨ 3 < code.toNat := by bv_omega
    rcases hcode with rfl | rfl | rfl | rfl | h
    · exact ⟨.icmpRedirectNetwork, rfl, rfl⟩
    · exact ⟨.icmpRedirectHost, rfl, rfl⟩
    · exact ⟨.icmpRedirectTosNetwork, rfl, rfl⟩
    · exact ⟨.icmpRedirectTosHost, rfl, rfl⟩
    · exact ⟨.icmpRedirect code, decide_eq_true h, rfl⟩
  · exact ⟨.icmpEchoRequest code, rfl, rfl⟩
  · exact ⟨.icmpRouterAdvertisement code, rfl, rfl⟩
  · exact ⟨.icmpRouterSolicitation code, rfl, rfl⟩
  · have hcode : code = 0 ∨ code = 1 ∨ 1 < code.toNat := by bv_omega
    rcases hcode with rfl | rfl | h
    · exact ⟨.icmpTimeExceededInTransit, rfl, rfl⟩
    · exact ⟨.icmpTimeExceededReassembly, rfl, rfl⟩
    · exact ⟨.icmpTimeExceeded code, decide_eq_true h, rfl⟩
  · exact ⟨.icmpParameterProblem code, rfl, rfl⟩
  · exact ⟨.icmpTimestamp code, rfl, rfl⟩
  · exact ⟨.icmpTimestampReply code, rfl, rfl⟩
  · exact ⟨.icmpInfoRequest code, rfl, rfl⟩
  · exact ⟨.icmpInfoReply code, rfl, rfl⟩
  · exact ⟨.icmpAddressMaskRequest code, rfl, rfl⟩
  · exact ⟨.icmpAddressMaskReply code, rfl, rfl⟩

/-- Settles O2: a key is some well-formed instruction's encoding, and decodes to no other. -/
theorem encodeDecodeRoundTrip : Obligations.EncodeDecodeRoundTrip := by
  intro w i h
  cases w with
  | command v =>
    simp only [decode] at h
    rcases decodeCommand_cases v with
      ⟨-, hd⟩ | ⟨-, -, hd⟩ | ⟨rfl, hd⟩ | ⟨rfl, hd⟩ | ⟨rfl, hd⟩ | ⟨rfl, hd⟩ | ⟨rfl, hd⟩ | ⟨rfl, hd⟩
      <;> cases hd.symm.trans h
    all_goals exact ⟨rfl, rfl⟩
  | icmpKey k =>
    obtain ⟨j, hwf, hj⟩ := exists_encode_key (k.extractLsb' 8 8) (k.extractLsb' 0 8)
    rw [icmpKeyOf_slices] at hj
    have hij : i = j := by
      rw [← hj, decodeEncodeRoundTrip j hwf] at h
      exact (Except.ok.inj h).symm
    exact hij ▸ ⟨hwf, hj⟩

/-- Settles O3. -/
theorem spelledOutWordsDecode : Obligations.SpelledOutWordsDecode :=
  ⟨rfl, rfl, rfl, rfl, rfl, rfl, rfl, rfl, rfl, rfl, rfl, rfl⟩

/-- The reserved command words are the refused ones (30_encoding.md R102, R105). -/
theorem decode_command_error_iff (v : Word) :
    (∃ r, decode (.command v) = .error r) ↔ (v.extractLsb' 8 24 ≠ 0 ∨ 6 ≤ (v.extractLsb' 0 8).toNat) := by
  simp only [decode]
  rcases decodeCommand_cases v with
    ⟨hu, hd⟩ | ⟨-, hl, hd⟩ | ⟨rfl, hd⟩ | ⟨rfl, hd⟩ | ⟨rfl, hd⟩ | ⟨rfl, hd⟩ | ⟨rfl, hd⟩ | ⟨rfl, hd⟩ <;> rw [hd]
  · exact iff_of_true ⟨_, rfl⟩ (.inl hu)
  · exact iff_of_true ⟨_, rfl⟩ (.inr hl)
  all_goals exact iff_of_false nofun (by decide)

/-- Settles O4. -/
theorem onlyReservedCommandWordsAreRefused : Obligations.OnlyReservedCommandWordsAreRefused :=
  ⟨decode_command_error_iff, fun k => ⟨decodeIcmp k, rfl⟩⟩

end Sys2Proof
end

section
/-! PROOFS. The rows of the (type, code) decoder: the class and code tables select the same meaning (O5), from which the
classification (O6) and the absence of an embedded datagram (O34) follow for all rows at once; then the rows class by class
(O24, O26, O28, O29, O32), each as the end of the command that its class rule makes. -/

namespace Sys2Proof.Machine

/-! ## The tables -/

theorem mem_assignedTypes_iff (t : Byte) :
    t ∈ assignedTypes ↔ t.toNat ∈ [0, 3, 4, 5, 8, 9, 10, 11, 12, 13, 14, 15, 16, 17, 18] := by
  simp [assignedTypes, ← BitVec.toNat_inj]

theorem classOf_unassigned {t : Byte} (h : t ∉ assignedTypes) : classOf t = .unknown := by
  rw [mem_assignedTypes_iff] at h
  unfold classOf
  split
  case h_16 => rfl
  all_goals rename_i ht; rw [ht] at h; exact absurd (by decide) h

/-- The three code tables (30_encoding.md R122 to R124). -/
theorem codeTable_cases (t : Byte) :
    (t = 3 ∧ codeTable t = some 5) ∨ (t = 5 ∧ codeTable t = some 3) ∨ (t = 11 ∧ codeTable t = some 1)
    ∨ (t ≠ 3 ∧ t ≠ 5 ∧ t ≠ 11 ∧ codeTable t = none) := by
  by_cases h3 : t = 3
  · exact .inl ⟨h3, h3 ▸ rfl⟩
  by_cases h5 : t = 5
  · exact .inr (.inl ⟨h5, h5 ▸ rfl⟩)
  by_cases h11 : t = 11
  · exact .inr (.inr (.inl ⟨h11, h11 ▸ rfl⟩))
  refine .inr (.inr (.inr ⟨h3, h5, h11, ?_⟩))
  unfold codeTable
  split
  case h_1 ht => exact absurd (BitVec.eq_of_toNat_eq ht) h3
  case h_2 ht => exact absurd (BitVec.eq_of_toNat_eq ht) h5
  case h_3 ht => exact absurd (BitVec.eq_of_toNat_eq ht) h11
  case h_4 => rfl

/-- The codes without a row of their own: those beyond the code table of their type (43_icmp_classify.md R205). -/
theorem codeKnown_eq_false_iff (t code : Byte) :
    codeKnown t code = false ↔
      (t = 3 ∧ 5 < code.toNat) ∨ (t = 5 ∧ 3 < code.toNat) ∨ (t = 11 ∧ 1 < code.toNat) := by
  rcases codeTable_cases t with ⟨rfl, hc⟩ | ⟨rfl, hc⟩ | ⟨rfl, hc⟩ | ⟨h3, h5, h11, hc⟩ <;> rw [codeKnown, hc]
  · simp
  · simp
  · simp
  · exact iff_of_false nofun (by rintro (⟨h, -⟩ | ⟨h, -⟩ | ⟨h, -⟩) <;> contradiction)

theorem codeKnown_unassigned {t : Byte} (h : t ∉ assignedTypes) (code : Byte) : codeKnown t code = true := by
  rw [← Bool.not_eq_false, codeKnown_eq_false_iff]
  rintro (⟨rfl, -⟩ | ⟨rfl, -⟩ | ⟨rfl, -⟩) <;> exact h (by decide)

/-- The class number of each type, from the table of 30_encoding.md R120. -/
theorem classNumber_classOf (t : Byte) :
    (classNumber (classOf t)).toNat
      = (([(0, 1), (8, 2), (3, 3), (4, 4), (5, 5), (9, 6), (10, 7), (11, 8), (12, 9), (13, 10), (14, 11), (15, 12), (16, 13),
          (17, 14), (18, 15)] : List (Nat × Nat)).lookup t.toNat).getD 16 := by
  by_cases ht : t ∈ assignedTypes
  · simp only [assignedTypes, List.mem_cons, List.not_mem_nil, or_false] at ht
    rcases ht with rfl | rfl | rfl | rfl | rfl | rfl | rfl | rfl | rfl | rfl | rfl | rfl | rfl | rfl | rfl <;> rfl
  · rw [classOf_unassigned ht, List.lookup_eq_none_iff.2]
    · rfl
    · intro row hrow
      have hlisted : row.1 ∈ [0, 3, 4, 5, 8, 9, 10, 11, 12, 13, 14, 15, 16, 17, 18] := by
        revert row
        decide
      rw [mem_assignedTypes_iff] at ht
      exact bne_iff_ne.2 fun he => ht (he ▸ hlisted)

theorem classNumber_eq_unknown_iff (c : IcmpClass) : classNumber c = 16 ↔ c = .unknown := by
  cases c <;> decide

theorem errorReporting_classOf {t : Byte} (h : t.toNat ∉ [3, 4, 5, 11, 12]) : errorReporting (classOf t) = false := by
  unfold classOf
  split
  case h_3 | h_4 | h_5 | h_8 | h_9 => rename_i ht; rw [ht] at h; exact absurd (by decide) h
  all_goals rfl

/-! ## The rows and the tables -/

/-- The row of a key has the meaning that the class and code tables select (43_icmp_classify.md R204, R205). -/
theorem exec_of_encode_key {i : Instr} {t code : Byte} (hwf : i.WellFormed = true)
    (he : encode i = .icmpKey (icmpKeyOf t code)) (s : State) :
    exec i s = .next (runClass (classOf t) code (codeKnown t code) s) := by
  cases i with
  | nop | csum | parseIp | parseIcmp | classify | clear => cases he
  | icmpUnknown u d =>
    obtain ⟨rfl, rfl⟩ := (icmpKeyOf_inj _ _ _ _).1 (TableWord.icmpKey.inj he)
    have hu : u ∉ assignedTypes := by simpa [Instr.WellFormed] using hwf
    rw [classOf_unassigned hu, codeKnown_unassigned hu]
    rfl
  | _ =>
    obtain ⟨rfl, rfl⟩ := (icmpKeyOf_inj _ _ _ _).1 (TableWord.icmpKey.inj he)
    rfl

/-- Settles O5: the decoded instruction is well-formed and encodes the key (O2). -/
theorem rowsAgreeWithClassAndCodeTables : Obligations.RowsAgreeWithClassAndCodeTables := by
  intro type code s
  obtain ⟨hwf, he⟩ := encodeDecodeRoundTrip (.icmpKey (icmpKeyOf type code)) _ rfl
  exact ⟨_, rfl, exec_of_encode_key hwf he s⟩

/-- Settles O6: the row is the classified end of the message (O5), and its frame says what it writes. -/
theorem classificationTable : Obligations.ClassificationTable := by
  intro type code s
  obtain ⟨i, hi, ht⟩ := rowsAgreeWithClassAndCodeTables type code s
  obtain ⟨-, -, ⟨-, -, -, -, hcls, hknown⟩, -, ⟨htype, hcode⟩, -⟩ :=
    runClass_frame (classOf type) code (codeKnown type code) s
  refine ⟨i, _, hi, ht, ?_, ?_, ?_, ?_⟩
  · rw [hcls, classNumber_classOf]
  · rw [hknown, codeKnown_eq_false_iff]
  · simp only [htype, hcls, classNumber_eq_unknown_iff]
  · rw [hcode, hknown]

/-- Settles O34: no class but an error-reporting one calls the embedded parse (43_icmp_classify.md R227). -/
theorem otherClassesHaveNoEmbeddedDatagram : Obligations.OtherClassesHaveNoEmbeddedDatagram := by
  intro type code s htype
  obtain ⟨i, hi, ht⟩ := rowsAgreeWithClassAndCodeTables type code s
  obtain ⟨hem, hbad⟩ := classRule_em (errorReporting_classOf htype) code (s.classified (classOf type) (codeKnown type code))
  rw [State.classified_em] at hem
  rw [State.classified_status] at hbad
  exact ⟨i, _, hi, ht, hem, hbad⟩

/-! ## Each class -/

theorem runClass_destinationUnreachable (code : Byte) (known : Bool) (s : State) :
    runClass .destinationUnreachable code known s =
      errorReportEnd { s.ic with cls := .destinationUnreachable, codeKnown := known,
                                 mtu := if code = 4 then lowerHalf s.ic.w1 else s.ic.mtu } (!known) s := by
  simp only [runClass, classRule, ruleDestinationUnreachable]
  by_cases h : code = 4
  · rw [if_pos h, if_pos h]
    cases known <;> rfl
  · rw [if_neg h, if_neg h]
    cases known <;> rfl

theorem runClass_redirect (code : Byte) (known : Bool) (s : State) :
    runClass .redirect code known s =
      errorReportEnd { s.ic with cls := .redirect, codeKnown := known, gateway := s.ic.w1 } (!known) s := by
  cases known <;> rfl

theorem runClass_timeExceeded (code : Byte) (known : Bool) (s : State) :
    runClass .timeExceeded code known s =
      errorReportEnd { s.ic with cls := .timeExceeded, codeKnown := known } (!known) s := by
  cases known <;> rfl

/-- A class whose rule writes nothing ends the command with its class alone (43_icmp_classify.md R217, R220 to R224, R226). -/
theorem runClass_fieldless {c : IcmpClass} {code : Byte} (h : ∀ s, classRule c code s = (s, .ok)) (s : State) :
    runClass c code true s = plainEnd { s.ic with cls := c, codeKnown := true } .ok
      { s with status := { s.status with wUnkType := decide (c = .unknown) || s.status.wUnkType } } := by
  rw [runClass, h]
  cases c <;> rfl

/-- Settles O24: only code 4 writes the MTU, and a code beyond the table is unknown. -/
theorem destinationUnreachableRows : Obligations.DestinationUnreachableRows := by
  refine ⟨fun code => congrArg _ (decodeIcmp_key 3 code), fun s => ?_⟩
  have hrow (n : Byte) (known : Bool) :=
    congrArg (Host.Outcome.next (φ := Fault) (ρ := Refusal)) (runClass_destinationUnreachable n known s)
  refine ⟨hrow 0 true, hrow 1 true, hrow 2 true, hrow 3 true, hrow 4 true, hrow 5 true, fun code h => ?_⟩
  have hk : codeKnown 3 code = false := (codeKnown_eq_false_iff 3 code).2 (.inl ⟨rfl, h⟩)
  have h4 : code ≠ 4 := code_ne_of_beyond h (by decide)
  rw [exec, execIcmpDestinationUnreachable, hk, hrow, if_neg h4]
  rfl

/-- Settles O26. -/
theorem redirectRows : Obligations.RedirectRows := by
  refine ⟨fun code => congrArg _ (decodeIcmp_key 5 code), fun s => ?_⟩
  have hrow (n : Byte) (known : Bool) :=
    congrArg (Host.Outcome.next (φ := Fault) (ρ := Refusal)) (runClass_redirect n known s)
  refine ⟨hrow 0 true, hrow 1 true, hrow 2 true, hrow 3 true, fun code h => ?_⟩
  have hk : codeKnown 5 code = false := (codeKnown_eq_false_iff 5 code).2 (.inr (.inl ⟨rfl, h⟩))
  rw [exec, execIcmpRedirect, hk]
  exact hrow code false

/-- Settles O29. -/
theorem timeExceededRows : Obligations.TimeExceededRows := by
  refine ⟨fun code => congrArg _ (decodeIcmp_key 11 code), fun s => ?_⟩
  have hrow (n : Byte) (known : Bool) :=
    congrArg (Host.Outcome.next (φ := Fault) (ρ := Refusal)) (runClass_timeExceeded n known s)
  refine ⟨hrow 0 true, hrow 1 true, fun code h => ?_⟩
  have hk : codeKnown 11 code = false := (codeKnown_eq_false_iff 11 code).2 (.inr (.inr ⟨rfl, h⟩))
  rw [exec, execIcmpTimeExceeded, hk]
  exact hrow code false

/-- Settles O28. -/
theorem fieldlessClassRows : Obligations.FieldlessClassRows := by
  intro code s
  have hkey (t : Byte) := congrArg (Except.ok (ε := DecodeReject)) (decodeIcmp_key t code)
  have hrow (c : IcmpClass) (h : ∀ s, classRule c code s = (s, .ok)) :=
    congrArg (Host.Outcome.next (φ := Fault) (ρ := Refusal)) (runClass_fieldless h s)
  exact ⟨⟨hkey 10, hrow .routerSolicitation fun _ => rfl⟩, ⟨hkey 13, hrow .timestamp fun _ => rfl⟩,
    ⟨hkey 14, hrow .timestampReply fun _ => rfl⟩, ⟨hkey 15, hrow .infoRequest fun _ => rfl⟩,
    ⟨hkey 16, hrow .infoReply fun _ => rfl⟩, ⟨hkey 17, hrow .addressMaskRequest fun _ => rfl⟩⟩

/-- Settles O32. -/
theorem unknownTypeRow : Obligations.UnknownTypeRow := by
  intro type code s htype
  rw [← mem_assignedTypes_iff] at htype
  exact ⟨congrArg _ (decodeIcmp_unassigned htype code),
    congrArg Host.Outcome.next (runClass_fieldless (c := .unknown) (fun _ => rfl) s)⟩

end Sys2Proof.Machine
end

section
/-! PROOFS. What the commands and the step do with a decoded word: `PARSE_ICMP` and `CLASSIFY` run the row that the message
selects (O18, O20), `CSUM` (O13), a step runs what its word decodes to (O59), and a reserved word raises (O38). -/

namespace Sys2Proof.Machine

/-! ## The parses and the row they select -/

/-- The first byte of a 32-bit field (00_scope.md R17). -/
theorem byte3_be32 (s : State) (i : Nat) : byte3 (s.be32 i) = s.byte i := by
  apply BitVec.eq_of_toNat_eq
  have := (s.byte (i + 1)).isLt
  have := (s.byte (i + 2)).isLt
  have := (s.byte (i + 3)).isLt
  rw [byte3_toNat, State.be32_toNat]
  omega

theorem byte2_be32 (s : State) (i : Nat) : byte2 (s.be32 i) = s.byte (i + 1) := by
  apply BitVec.eq_of_toNat_eq
  have := (s.byte (i + 1)).isLt
  have := (s.byte (i + 2)).isLt
  have := (s.byte (i + 3)).isLt
  rw [byte2_toNat, State.be32_toNat]
  omega

/-- `icmp_parse` of at least 8 bytes, from zeroed IC and EM groups, is the row of the first two bytes run where the class rule
is selected (43_icmp_classify.md R204). -/
theorem icmpParse_runs_row {off lim : Nat} (h : off + 8 ≤ lim) {s : State} (hic : s.ic = {}) (hem : s.em = {}) :
    ∃ i, decode (.icmpKey (icmpKeyOf (s.byte off) (s.byte (off + 1)))) = .ok i
      ∧ exec i (atDispatch off (lim - off) s) = .next (icmpParse off lim s) := by
  obtain ⟨i, hi, ht⟩ := rowsAgreeWithClassAndCodeTables (s.byte off) (s.byte (off + 1)) (atDispatch off (lim - off) s)
  refine ⟨i, hi, ht.trans (congrArg _ ?_)⟩
  rcases icmpHeader_cases off lim s with ⟨hshort, -⟩ | ⟨-, hh⟩
  · omega
  · rw [icmpParse, hh, hic]
    simp only [dispatchClass, byte3_be32, byte2_be32]
    rw [atDispatch, ← hem]

/-- Settles O18: on a legal range `PARSE_ICMP` is `icmp_parse`, which runs the row. -/
theorem parseIcmpRunsTheSelectedRow : Obligations.ParseIcmpRunsTheSelectedRow := by
  intro s hrange hlong
  obtain ⟨i, hi, ht⟩ := icmpParse_runs_row (off := s.argOff.toNat) (lim := s.argOff.toNat + s.argLen.toNat) (by omega)
    (s := s.beginCommand.zeroIcEm) rfl rfl
  rw [Nat.add_sub_cancel_left] at ht
  exact ⟨i, _, hi, if_pos (decide_eq_true hrange), ht⟩

theorem headerBytes_eq (b : Byte) : headerBytes b = b.toNat % 16 * 4 := by
  rw [headerBytes, lowNibble_toNat]

theorem effectiveLength_eq (s : State) : s.effectiveLength = min (declaredLength s) s.pktLen.toNat := by
  rw [State.effectiveLength, State.be16_toNat]
  rfl

/-- The IP group that `ip_parse` writes holds the header (42_ipv4_parse.md R182). -/
theorem holdsHeader_ipGroupOf (s : State) : HoldsHeader s s.ipGroupOf := by
  have := s.pktLen.isLt
  refine ⟨s.be32_toNat 0, s.be32_toNat 4, s.be32_toNat 8, s.be32_toNat 12, s.be32_toNat 16, ?_, ?_, ?_⟩
    <;> simp only [State.ipGroupOf, headerBytes_eq, effectiveLength_eq, declaredLength, ipMinHdr, BitVec.toNat_ofNat]
    <;> omega

theorem warnLenMismatch_of_quiet {s : State} (h : s.status.wLenMismatch = false) (c : Bool) :
    s.warnLenMismatch c = { s with status := { s.status with wLenMismatch := c } } := by
  cases c with
  | true => rfl
  | false =>
    show s = { s with status := { s.status with wLenMismatch := false } }
    rw [← h]

/-- A good header passes `ip_parse`, which then warns of a length disagreement and nothing else (42_ipv4_parse.md R186, R191). -/
theorem ipParse_of_goodHeader {s : State} (h : GoodHeader s) (hquiet : s.status.wLenMismatch = false) :
    ipParse s = .value ⟨(s.byte 0).toNat % 16 * 4, min (declaredLength s) s.pktLen.toNat, s.byte 9⟩
      { s with
        ip := s.ipGroupOf
        status := { s.status with wLenMismatch := decide (declaredLength s ≠ s.pktLen.toNat) } } := by
  obtain ⟨hlen, hversion, hihl⟩ := h
  rcases ipParse_cases s with ⟨hshort, -⟩ | ⟨-, hbad, -⟩ | ⟨-, -, hbad, -⟩ | ⟨-, -, -, hp⟩
  · omega
  · exact absurd (BitVec.eq_of_toNat_eq ((highNibble_toNat _).trans hversion)) hbad
  · rw [lowNibble_toNat] at hbad
    omega
  · rw [hp, headerBytes_eq, effectiveLength_eq, State.be16_toNat,
      warnLenMismatch_of_quiet (s := { s with ip := s.ipGroupOf }) hquiet]
    rfl

/-- `CLASSIFY` of a packet with a good header and protocol 1 is `icmp_parse` of what follows the header
(43_icmp_classify.md R231). -/
theorem exec_classify_of_goodHeader {s : State} (h : GoodHeader s) (hproto : s.byte 9 = 1) :
    exec .classify s = .next (icmpParse ((s.byte 0).toNat % 16 * 4) (min (declaredLength s) s.pktLen.toNat)
      { s with
        ip := s.ipGroupOf, ic := {}, em := {}
        status := { wLenMismatch := decide (declaredLength s ≠ s.pktLen.toNat), sBusyWr := s.status.sBusyWr } }) := by
  have hp := ipParse_of_goodHeader (s := s.beginCommand.zeroIp.zeroIcEm) h rfl
  rw [exec, execClassify, hp]
  exact if_neg (not_not.2 hproto)

/-- Settles O20: behind a good header `CLASSIFY` is `icmp_parse`, which runs the row. -/
theorem classifyRunsTheSelectedRow : Obligations.ClassifyRunsTheSelectedRow := by
  intro s hgood hproto hlong
  have hexec := exec_classify_of_goodHeader hgood hproto
  obtain ⟨i, hi, hrow⟩ := icmpParse_runs_row hlong (s := { s with
    ip := s.ipGroupOf, ic := {}, em := {}
    status := { wLenMismatch := decide (declaredLength s ≠ s.pktLen.toNat), sBusyWr := s.status.sBusyWr } }) rfl rfl
  exact ⟨s.ipGroupOf, i, _, holdsHeader_ipGroupOf s, hi, hexec, hrow⟩

/-! ## The checksum command -/

/-- Settles O13, by the range test of 30_encoding.md R104. -/
theorem csumStoresChecksumOrRaisesRange : Obligations.CsumStoresChecksumOrRaisesRange := by
  intro s
  refine ⟨fun h => ?_, fun h => ?_⟩
  · exact if_pos (decide_eq_true h)
  · exact if_neg (by simpa [State.rangeLegal] using h)

/-! ## Steps -/

/-- The engine has the step when no host action comes first (45_control_commands.md R262, log 4). -/
theorem turn_of_due {s : State} {v : Word} (he : s.engine = .holding v) (hdue : s.host.script = [] ∨ s.host.delay = 0) :
    turn s = .engine (.command v) := by
  unfold turn
  rw [he]
  rcases hdue with h | h
  · simp [h]
  · cases hs : s.host.script <;> simp [h]

theorem turn_of_dispatching {s : State} (he : s.engine = .dispatching) :
    turn s = .engine (.icmpKey (upperHalf s.ic.w0)) := by
  simp [turn, he]

theorem step_of_decode_ok {s : State} {w : TableWord} {i : Instr} (ht : turn s = .engine w) (hi : decode w = .ok i) :
    step s = exec i s := by
  simp [step, ht, hi]

theorem step_of_decode_error {s : State} {w : TableWord} {r : DecodeReject} (ht : turn s = .engine w)
    (hr : decode w = .error r) : step s = .next s.completeReserved := by
  simp [step, ht, hr]

/-- Settles O38: the word is refused (O4), accepted like any other (O39), and completes as a reserved word. -/
theorem reservedWordRaisesBadCmd : Obligations.ReservedWordRaisesBadCmd := by
  intro s v hv
  obtain ⟨r, hr⟩ := (decode_command_error_iff v).2 hv
  refine ⟨⟨r, hr⟩, fun rest he hs => ?_, fun he hdue => ?_⟩
  · have hne : v ≠ 0 := by rintro rfl; cases hr
    obtain ⟨haccept, -⟩ := acceptanceClearsStatusAndHoldsTheWord s v rest he hs hne
    exact haccept
  · have hstep := step_of_decode_error (turn_of_due he hdue) hr
    refine ⟨hstep, fun t ht => ?_⟩
    cases hstep.symm.trans ht
    rw [statusWord_toNat]
    simp [Status.cleared, outcomeNumber, errNumber, State.busy]

/-- `NOP` runs at its write to `CMD` (45_control_commands.md R265, log 17). -/
theorem step_of_zero_write {s : State} {rest : List HostAction} (he : s.engine = .idle)
    (hs : s.host.script = .wr32 0 0 :: rest) : step s = exec .nop (s.taken rest) := by
  rw [step_of_host_turn (turn_of_idle he hs), hostTurn_wr32 (by decide) rfl, wr32]
  simp [State.busy_of_idle (s := s.taken rest) he, registerAt_cmd, writeCmd, exec]

theorem decode_of_decodeTableWord {nbits w : Nat} {i : Instr} (h : decodeTableWord nbits w = some i) :
    decode (tableWordOf nbits w) = .ok i := by
  unfold decodeTableWord at h
  split at h
  · cases h
  · cases hd : decode (tableWordOf nbits w) with
    | error r => rw [hd] at h; cases h
    | ok j => rw [hd] at h; cases h; rfl

/-- A word other than `NOP`'s, placed where the engine takes it, is run by the next step (log 5, log 6). -/
theorem step_withFetchWord {s : State} {nbits w : Nat} {i : Instr} (hi : decode (tableWordOf nbits w) = .ok i)
    (hnop : i ≠ .nop) : step (s.withFetchWord nbits w) = exec i (s.withFetchWord nbits w) := by
  unfold State.withFetchWord
  cases hw : tableWordOf nbits w with
  | command v =>
    rw [hw] at hi
    have hv : v ≠ 0 := by rintro rfl; exact hnop (Except.ok.inj hi).symm
    simp only [if_neg hv]
    exact step_of_decode_ok (turn_of_due rfl (.inr rfl)) hi
  | icmpKey k =>
    rw [hw] at hi
    refine step_of_decode_ok (turn_of_dispatching rfl) ?_
    rwa [upperHalf_withUpperHalf]

/-- Settles O59; the word that decodes to `NOP` is the zero word (O2), which is placed as the host's write. -/
theorem stepRunsTheDecodedInstruction : Obligations.StepRunsTheDecodedInstruction := by
  refine ⟨fun s v i he hdue hi => step_of_decode_ok (turn_of_due he hdue) hi,
    fun s i he hi => step_of_decode_ok (turn_of_dispatching he) hi,
    fun s rest he hs => step_of_zero_write he hs,
    fun s nbits w i hi hnop => step_withFetchWord (decode_of_decodeTableWord hi) hnop,
    fun s nbits w hi => ?_⟩
  obtain ⟨-, hw⟩ := encodeDecodeRoundTrip _ _ (decode_of_decodeTableWord hi)
  unfold State.withFetchWord
  rw [← hw]
  exact step_of_zero_write rfl rfl

end Sys2Proof.Machine
end

section
/-! PROOFS. The checksum (40_checksum.md): the accumulator holds the sum of the words (O8, O9), two folds reduce it to 16 bits
and keep it modulo 0xFFFF and non-zero (O10), and the checksum's value, corner cases and verification follow (O7, O11, O12,
O14). -/

namespace Sys2Proof.Machine

/-! ## The sum of the words -/

/-- The accumulator adds the sum of the words modulo 2^32 (40_checksum.md R150, R158). -/
theorem addWords_eq (acc : Word) (bytes : List Byte) : addWords acc bytes = acc + BitVec.ofNat 32 (wordSum bytes) := by
  have hword : ∀ hi lo : Byte, wordOfBytes hi lo = BitVec.ofNat 32 (hi.toNat * 256 + lo.toNat) := fun hi lo => by
    rw [← wordOfBytes_toNat, BitVec.ofNat_toNat, BitVec.setWidth_eq]
  induction acc, bytes using addWords.induct with
  | case1 acc => exact (BitVec.add_zero acc).symm
  | case2 acc last => simp [addWords, hword, wordSum]
  | case3 acc hi lo rest ih => rw [addWords, ih, hword, wordSum, BitVec.ofNat_add (_ + _) (wordSum rest), BitVec.add_assoc]

theorem addWords_zero_eq (bytes : List Byte) : addWords 0 bytes = BitVec.ofNat 32 (wordSum bytes) :=
  (addWords_eq 0 bytes).trans (BitVec.zero_add _)

/-- One word of at most 0xFFFF for every two bytes begun (40_checksum.md R153). -/
theorem wordSum_le (bytes : List Byte) : wordSum bytes ≤ (bytes.length + 1) / 2 * 0xFFFF := by
  induction bytes using wordSum.induct with
  | case1 => exact Nat.zero_le _
  | case2 last =>
    have := last.isLt
    simp only [wordSum, List.length_singleton]
    omega
  | case3 hi lo rest ih =>
    have := hi.isLt
    have := lo.isLt
    simp only [wordSum, List.length_cons]
    omega

theorem wordSum_append {bytes : List Byte} (h : bytes.length % 2 = 0) (more : List Byte) :
    wordSum (bytes ++ more) = wordSum bytes + wordSum more := by
  induction bytes using wordSum.induct with
  | case1 => exact (Nat.zero_add _).symm
  | case2 last => simp at h
  | case3 hi lo rest ih =>
    have heven : rest.length % 2 = 0 := by simp only [List.length_cons] at h; omega
    simp only [List.cons_append, wordSum, ih heven, Nat.add_assoc]

theorem toNat_eq_zero_iff {w : Nat} (x : BitVec w) : x.toNat = 0 ↔ x = 0 := by
  rw [← BitVec.toNat_inj]
  rfl

theorem wordSum_eq_zero_iff (bytes : List Byte) : wordSum bytes = 0 ↔ ∀ b ∈ bytes, b = 0 := by
  induction bytes using wordSum.induct with
  | case1 => simp [wordSum]
  | case2 last => simp [wordSum, toNat_eq_zero_iff]
  | case3 hi lo rest ih => simp [wordSum, ih, toNat_eq_zero_iff, and_assoc]

/-- Settles O8: 65535 bytes begin 32768 words. -/
theorem accumulatorNeverWraps : Obligations.AccumulatorNeverWraps := by
  intro bytes h
  have hle : wordSum bytes ≤ 0x7FFF8000 := by
    have := wordSum_le bytes
    omega
  refine ⟨?_, hle⟩
  rw [addWords_zero_eq, BitVec.toNat_ofNat]
  exact Nat.mod_eq_of_lt (by omega)

/-- The checksum depends on the sum of the words alone. -/
theorem checksum_congr {xs ys : List Byte} (h : wordSum xs = wordSum ys) : checksum xs = checksum ys := by
  rw [checksum, checksum, addWords_zero_eq, addWords_zero_eq, h]

/-- Settles O9: both sequences end in a word of the same value. -/
theorem oddLastByteIsAHighByte : Obligations.OddLastByteIsAHighByte := by
  intro bytes last heven
  refine ⟨?_, checksum_congr ?_⟩
  · rw [addWords_zero_eq, addWords_zero_eq, wordSum_append heven, BitVec.ofNat_add, wordSum]
  · simp [wordSum_append heven, wordSum]

/-! ## The folds -/

theorem foldCarries_toNat (acc : Word) : (foldCarries acc).toNat = acc.toNat % 65536 + acc.toNat / 65536 := by
  have := acc.isLt
  rw [foldCarries, BitVec.toNat_add, BitVec.toNat_setWidth, BitVec.toNat_setWidth, lowerHalf_toNat, upperHalf_toNat]
  omega

theorem foldCarries_foldCarries_toNat (acc : Word) : (foldCarries (foldCarries acc)).toNat = foldedSum acc.toNat := by
  rw [foldCarries_toNat, foldCarries_toNat, foldedSum]

/-- Two folds leave no carry (40_checksum.md R152). -/
theorem foldedSum_le {n : Nat} (h : n < 2 ^ 32) : foldedSum n ≤ 0xFFFF := by
  rw [foldedSum]
  omega

/-- A fold is the end-around carry: it keeps a number modulo 0xFFFF. -/
theorem foldedSum_mod (n : Nat) : foldedSum n % 0xFFFF = n % 0xFFFF := by
  rw [foldedSum]
  omega

/-- A fold maps a non-zero value to a non-zero value (40_checksum.md R154). -/
theorem foldedSum_eq_zero_iff (n : Nat) : foldedSum n = 0 ↔ n = 0 := by
  rw [foldedSum]
  omega

/-- Settles O10. -/
theorem twoFoldsSuffice : Obligations.TwoFoldsSuffice := by
  intro acc
  refine ⟨?_, ?_, fun hnocarry => ?_⟩
  · have := acc.isLt
    rw [foldCarries_toNat]
    omega
  · rw [foldCarries_foldCarries_toNat]
    exact foldedSum_le acc.isLt
  · apply BitVec.eq_of_toNat_eq
    rw [foldCarries_toNat (foldCarries acc)]
    omega

/-! ## The checksum as a number -/

theorem checksum_toNat (bytes : List Byte) : (checksum bytes).toNat = 0xFFFF - foldedSum (addWords 0 bytes).toNat := by
  have := foldedSum_le (addWords 0 bytes).isLt
  rw [checksum, BitVec.toNat_not, lowerHalf_toNat, foldCarries_foldCarries_toNat]
  omega

/-- Settles O7. -/
theorem checksumIsComplementOfFoldedSum : Obligations.ChecksumIsComplementOfFoldedSum := by
  intro bytes h
  obtain ⟨hsum, -⟩ := accumulatorNeverWraps bytes h
  rw [checksum_toNat, hsum]

theorem checksum_eq_zero_iff (bytes : List Byte) : checksum bytes = 0 ↔ foldedSum (addWords 0 bytes).toNat = 0xFFFF := by
  have := foldedSum_le (addWords 0 bytes).isLt
  have hval := checksum_toNat bytes
  rw [← toNat_eq_zero_iff, hval]
  omega

theorem checksum_of_all_zero {bytes : List Byte} (h : ∀ b ∈ bytes, b = 0) : checksum bytes = 0xFFFF :=
  (checksum_congr (ys := []) ((wordSum_eq_zero_iff bytes).2 h)).trans (by decide)

theorem checksum_nil : checksum [] = 0xFFFF :=
  checksum_of_all_zero fun _ h => nomatch h

/-- Settles O11; that a zero sum has only zero bytes needs that the accumulator did not wrap (O8). -/
theorem checksumCornerValues : Obligations.ChecksumCornerValues := by
  refine ⟨checksum_nil, fun _ => checksum_of_all_zero, fun bytes h => ⟨?_, ?_⟩⟩
  · rw [checksum_eq_zero_iff, ← foldCarries_foldCarries_toNat, ← BitVec.toNat_inj]
    rfl
  · obtain ⟨hsum, -⟩ := accumulatorNeverWraps bytes h
    rw [← wordSum_eq_zero_iff, ← hsum, ← foldedSum_eq_zero_iff, ← foldCarries_foldCarries_toNat, toNat_eq_zero_iff]

/-! ## Verification -/

/-- The end-around-carry sum of a number and the complement of its folded sum is 0xFFFF: it is a multiple of 0xFFFF and not 0
(40_checksum.md R156). -/
theorem foldedSum_add_complement {n : Nat} (h : n + 0xFFFF < 2 ^ 32) : foldedSum (n + (0xFFFF - foldedSum n)) = 0xFFFF := by
  have hn := foldedSum_le (show n < 2 ^ 32 by omega)
  have hle := foldedSum_le (show n + (0xFFFF - foldedSum n) < 2 ^ 32 by omega)
  have hmod := foldedSum_mod (n + (0xFFFF - foldedSum n))
  have hpos := foldedSum_eq_zero_iff (n + (0xFFFF - foldedSum n))
  have hmodn := foldedSum_mod n
  have hposn := foldedSum_eq_zero_iff n
  omega

/-- A 16-bit value stored high byte first adds its own value to the sum of the words (20_memory.md R74). -/
theorem wordSum_stored (c : Half) : wordSum [c.extractLsb' 8 8, c.extractLsb' 0 8] = c.toNat := by
  rw [wordSum, wordSum, Nat.add_zero, ← icmpKeyOf_toNat, icmpKeyOf_slices]

/-- The sum of the words of a range with a field of two bytes at an even distance from its start. -/
theorem wordSum_withField {before : List Byte} (heven : before.length % 2 = 0) (hi lo : Byte) (after : List Byte) :
    wordSum (before ++ [hi, lo] ++ after) = wordSum (before ++ [0, 0] ++ after) + wordSum [hi, lo] := by
  simp only [List.append_assoc, List.cons_append, List.nil_append, wordSum_append heven, wordSum, BitVec.ofNat_eq_ofNat,
    BitVec.toNat_ofNat, Nat.zero_mod]
  omega

/-- Settles O12: the field adds the complement of the folded sum to the sum of the words. -/
theorem storedChecksumVerifiesToZero : Obligations.StoredChecksumVerifiesToZero := by
  intro before after heven hlen
  have hlen' : ∀ hi lo : Byte, (before ++ [hi, lo] ++ after).length ≤ 65535 := fun hi lo => by
    simp only [List.length_append, List.length_cons, List.length_nil]
    omega
  obtain ⟨hsum, -⟩ := accumulatorNeverWraps _ (hlen' _ _)
  obtain ⟨-, hbound⟩ := accumulatorNeverWraps _ (hlen' 0 0)
  rw [checksum_eq_zero_iff, hsum, wordSum_withField heven, wordSum_stored, checksumIsComplementOfFoldedSum _ (hlen' 0 0)]
  exact foldedSum_add_complement (by omega)

/-! ## The command on an empty range -/

/-- Settles O14: an empty range inside the packet is legal (O13), and holds no byte. -/
theorem csumOfEmptyRangeIsAllOnes : Obligations.CsumOfEmptyRangeIsAllOnes := by
  intro s hlen hoff
  obtain ⟨hlegal, -⟩ := csumStoresChecksumOrRaisesRange s
  refine ⟨_, hlegal (by rw [hlen]; exact hoff), ?_, ?_, .of_outside rfl⟩
  · rw [hlen]
    exact checksum_nil
  · rw [statusWord_toNat]
    simp [outcomeNumber, errNumber, State.busy]

end Sys2Proof.Machine
end

section
/-! PROOFS. The IPv4 header parse (42_ipv4_parse.md): what `ip_parse` raises for each refused header, the report of a good one by
`PARSE_IP` (O15), and the refusals of `PARSE_IP` (O16) and `CLASSIFY` (O19) in their order. -/

namespace Sys2Proof.Machine

/-! ## The refusals of the parses -/

/-- The version field is 4 (30_encoding.md R110), as a number. -/
theorem highNibble_eq_four_iff (b : Byte) : highNibble b = 4 ↔ b.toNat / 16 = 4 := by
  rw [← BitVec.toNat_inj, highNibble_toNat]
  rfl

theorem ipParse_of_short {s : State} (h : s.pktLen.toNat < 20) : ipParse s = .raised .tooShort s := by
  rcases ipParse_cases s with ⟨-, hp⟩ | ⟨hlong, -⟩ | ⟨hlong, -⟩ | ⟨hlong, -⟩
  · exact hp
  all_goals omega

/-- The refused header stands in the IP group (42_ipv4_parse.md R189). -/
theorem ipParse_of_badVersion {s : State} (hlong : 20 ≤ s.pktLen.toNat) (h : (s.byte 0).toNat / 16 ≠ 4) :
    ipParse s = .raised .badVersion { s with ip := s.ipGroupOf } := by
  have hversion := mt (highNibble_eq_four_iff (s.byte 0)).1 h
  rcases ipParse_cases s with ⟨hshort, -⟩ | ⟨-, -, hp⟩ | ⟨-, hv, -⟩ | ⟨-, hv, -⟩
  · omega
  · exact hp
  all_goals exact absurd hv hversion

theorem ipParse_of_badIhl {s : State} (hlong : 20 ≤ s.pktLen.toNat) (hversion : (s.byte 0).toNat / 16 = 4)
    (h : (s.byte 0).toNat % 16 < 5) : ipParse s = .raised .badIhl { s with ip := s.ipGroupOf } := by
  rw [← lowNibble_toNat] at h
  rcases ipParse_cases s with ⟨hshort, -⟩ | ⟨-, hv, -⟩ | ⟨-, -, -, hp⟩ | ⟨-, -, hihl, -⟩
  · omega
  · exact absurd ((highNibble_eq_four_iff _).2 hversion) hv
  · exact hp
  · omega

/-- The remainder is a signed number, below 8 also when the header is longer than the packet (42_ipv4_parse.md R193). -/
theorem icmpParse_of_short {off lim : Nat} (h : (lim : Int) - off < 8) (s : State) :
    icmpParse off lim s = s.raise .icmpShort := by
  rcases icmpHeader_cases off lim s with ⟨-, hh⟩ | ⟨hlong, -⟩
  · rw [icmpParse, hh]
  · omega

/-! ## `PARSE_IP` -/

/-- Settles O15: a good header passes `ip_parse`. -/
theorem parseIpReportsGoodHeader : Obligations.ParseIpReportsGoodHeader := by
  intro s hgood
  have hp := ipParse_of_goodHeader (s := s.beginCommand.zeroIp) hgood rfl
  refine ⟨s.ipGroupOf, holdsHeader_ipGroupOf s, ?_⟩
  rw [exec, execParseIp, hp]
  rfl

/-- An error of `ip_parse` ends `PARSE_IP` (42_ipv4_parse.md R191). -/
theorem exec_parseIp_of_raised {s t : State} {e : ErrCode} (h : ipParse s.beginCommand.zeroIp = .raised e t) :
    exec .parseIp s = .next (t.raise e) := by
  rw [exec, execParseIp, h]

/-- Settles O16: each refusal is one of `ip_parse`. -/
theorem parseIpRefusesInOrder : Obligations.ParseIpRefusesInOrder := by
  intro s
  refine ⟨fun hshort => ?_, fun hlong hversion => ?_, fun hlong hversion hihl => ?_⟩
  · exact exec_parseIp_of_raised (ipParse_of_short hshort)
  · exact ⟨s.ipGroupOf, holdsHeader_ipGroupOf s, exec_parseIp_of_raised (ipParse_of_badVersion hlong hversion)⟩
  · exact ⟨s.ipGroupOf, holdsHeader_ipGroupOf s, exec_parseIp_of_raised (ipParse_of_badIhl hlong hversion hihl)⟩

/-! ## `CLASSIFY` -/

/-- An error of `ip_parse` ends `CLASSIFY` (42_ipv4_parse.md R192). -/
theorem exec_classify_of_raised {s t : State} {e : ErrCode}
    (h : ipParse s.beginCommand.zeroIp.zeroIcEm = .raised e t) : exec .classify s = .next (t.raise e) := by
  rw [exec, execClassify, h]

/-- The protocol is tested after the header is accepted, so the length warning is already set (42_ipv4_parse.md R187). -/
theorem exec_classify_of_notIcmp {s : State} (h : GoodHeader s) (hproto : s.byte 9 ≠ 1) :
    exec .classify s = .next (State.raise .notIcmp
      { s with
        ip := s.ipGroupOf, ic := {}, em := {}
        status := { wLenMismatch := decide (declaredLength s ≠ s.pktLen.toNat), sBusyWr := s.status.sBusyWr } }) := by
  have hp := ipParse_of_goodHeader (s := s.beginCommand.zeroIp.zeroIcEm) h rfl
  rw [exec, execClassify, hp]
  exact if_pos hproto

/-- Settles O19: the first three refusals are those of `ip_parse`, the fourth is the protocol test, the last is the length floor
of `icmp_parse`. -/
theorem classifyRefusesInOrder : Obligations.ClassifyRefusesInOrder := by
  intro s
  refine ⟨fun hshort => exec_classify_of_raised (ipParse_of_short hshort),
    fun hlong => ⟨s.ipGroupOf, holdsHeader_ipGroupOf s, fun hversion => ?_, fun hversion hihl => ?_,
      fun hgood hproto => exec_classify_of_notIcmp hgood hproto, fun hgood hproto hshort => ?_⟩⟩
  · exact exec_classify_of_raised (ipParse_of_badVersion hlong hversion)
  · exact exec_classify_of_raised (ipParse_of_badIhl hlong hversion hihl)
  · rw [exec_classify_of_goodHeader hgood hproto, icmpParse_of_short (by rwa [Nat.cast_min])]
    rfl

end Sys2Proof.Machine
end

section
/-! PROOFS. How `PARSE_ICMP` and `CLASSIFY` end (43_icmp_classify.md): the refusals of `PARSE_ICMP` (O17), the three ends of
`CLASSIFY` (O21), what every row keeps (O35), and the rows of the decoder class by class where not settled above (O22, O23, O25,
O27, O30, O31). -/

namespace Sys2Proof.Machine

/-! ## `PARSE_ICMP` -/

theorem exec_parseIcmp_of_legal {s : State} (h : s.argOff.toNat + s.argLen.toNat ≤ s.pktLen.toNat) :
    exec .parseIcmp s =
      .next (icmpParse s.argOff.toNat (s.argOff.toNat + s.argLen.toNat) s.beginCommand.zeroIcEm) :=
  if_pos (decide_eq_true h)

theorem exec_parseIcmp_of_illegal {s : State} (h : s.pktLen.toNat < s.argOff.toNat + s.argLen.toNat) :
    exec .parseIcmp s = .next (s.beginCommand.zeroIcEm.raise .range) :=
  if_neg (by simpa [State.rangeLegal] using h)

/-- Settles O17: the range test, then the length floor of `icmp_parse`, each before a register of the message is written. -/
theorem parseIcmpRefusesInOrder : Obligations.ParseIcmpRefusesInOrder := by
  intro s
  refine ⟨fun hrange => exec_parseIcmp_of_illegal hrange, fun hrange hshort => ?_⟩
  rw [exec_parseIcmp_of_legal hrange, icmpParse_of_short (by omega)]
  rfl

/-! ## `CLASSIFY` -/

/-- All that `icmp_parse` can do: raise, or end with the rule of the class that the message's type selects
(43_icmp_classify.md R201, R204). -/
theorem icmpParse_cases (off lim : Nat) (s : State) :
    icmpParse off lim s = s.raise .icmpShort
    ∨ ∃ type code known t, icmpParse off lim s = runClass (classOf type) code known t := by
  rcases icmpHeader_cases off lim s with ⟨hshort, -⟩ | ⟨-, hh⟩
  · exact .inl (icmpParse_of_short hshort s)
  · rw [icmpParse, hh]
    exact .inr ⟨_, _, _, _, rfl⟩

/-- All that `CLASSIFY` can do: raise one of five errors with the IC group zero, or end with the rule of the class that the
message's type selects (43_icmp_classify.md R231, R232). -/
theorem exec_classify_cases (s : State) :
    (∃ (e : ErrCode) (t : State), exec .classify s = .next (t.raise e) ∧ t.ic = {}
      ∧ some e ∈ [some .tooShort, some .badVersion, some .badIhl, some .notIcmp, some .icmpShort])
    ∨ ∃ type code known t, exec .classify s = .next (runClass (classOf type) code known t) := by
  rcases ipParse_cases s.beginCommand.zeroIp.zeroIcEm with
    ⟨-, hp⟩ | ⟨-, -, hp⟩ | ⟨-, -, -, hp⟩ | ⟨hlong, hversion, hihl, -⟩
  · exact .inl ⟨_, _, exec_classify_of_raised hp, rfl, by decide⟩
  · exact .inl ⟨_, _, exec_classify_of_raised hp, rfl, by decide⟩
  · exact .inl ⟨_, _, exec_classify_of_raised hp, rfl, by decide⟩
  · have hgood : GoodHeader s := ⟨hlong, (highNibble_eq_four_iff _).1 hversion, lowNibble_toNat (s.byte 0) ▸ hihl⟩
    by_cases hproto : s.byte 9 = 1
    · rw [exec_classify_of_goodHeader hgood hproto]
      rcases icmpParse_cases _ _ _ with hi | ⟨type, code, known, t, hi⟩ <;> rw [hi]
      · exact .inl ⟨_, _, rfl, rfl, by decide⟩
      · exact .inr ⟨type, code, known, t, rfl⟩
    · exact .inl ⟨_, _, exec_classify_of_notIcmp hgood hproto, rfl, by decide⟩

/-- A classified message ends its command `FOREIGN` as an echo reply, or `OK` (43_icmp_classify.md R203, R211). -/
theorem runClass_outcome_cases (c : IcmpClass) (code : Byte) (known : Bool) (s : State) :
    ((runClass c code known s).status.outcome = .foreign ∧ c = .echoReply)
    ∨ (runClass c code known s).status.outcome = .ok := by
  rw [(runClass_frame c code known s).outcome]
  split
  · next h => exact .inl ⟨rfl, h.1⟩
  · exact .inr rfl

/-- Settles O21, by the ends of `CLASSIFY`: every type has a class, and only an echo reply is foreign. -/
theorem classifyIsTotal : Obligations.ClassifyIsTotal := by
  intro s
  rcases exec_classify_cases s with ⟨e, t, ht, hic, he⟩ | ⟨type, code, known, t, ht⟩
  · exact ⟨_, ht, rfl, rfl, .inl ⟨rfl, by rw [State.raise_ic, hic], he⟩⟩
  · obtain ⟨-, hengine, ⟨-, -, -, -, hcls, -⟩, ⟨hdone, herr, -⟩, -, -⟩ := runClass_frame (classOf type) code known t
    refine ⟨_, ht, hengine, hdone, .inr ?_⟩
    rcases runClass_outcome_cases (classOf type) code known t with ⟨hforeign, hreply⟩ | hok
    · exact .inl ⟨hforeign, herr, hcls.trans hreply⟩
    · exact .inr ⟨hok, herr, fun hno => classOf_ne_noMessage type (hcls.symm.trans hno)⟩

/-! ## What every row keeps -/

/-- Settles O35: a key is that of its type and code, so its row is the end of a classified message (O5), and the frames of that
end say what it keeps. -/
theorem everyRowEndsItsCommand : Obligations.EveryRowEndsItsCommand := by
  intro k s
  obtain ⟨i, hi, ht⟩ := rowsAgreeWithClassAndCodeTables (k.extractLsb' 8 8) (k.extractLsb' 0 8) s
  rw [icmpKeyOf_slices] at hi
  refine ⟨i, _, hi, ht, ?_⟩
  generalize classOf (k.extractLsb' 8 8) = c
  generalize codeKnown (k.extractLsb' 8 8) (k.extractLsb' 0 8) = known
  generalize k.extractLsb' 0 8 = code
  obtain ⟨-, hengine, ⟨hoff, hlen, hw0, hw1, -, -⟩, ⟨hdone, herr, hmismatch, hbusyWr⟩, -, -⟩ := runClass_frame c code known s
  obtain ⟨hcommand, hcsum, hip⟩ := runClass_icmpFrame c code known s
  have houtcome := (runClass_outcome_cases c code known s).symm.imp_right And.left
  exact ⟨hengine, hdone, herr, houtcome, hmismatch, hbusyWr, hoff, hlen, hw0, hw1, hcsum, hip, hcommand.body.inputs⟩

/-! ## The remaining rows -/

/-- Classifying a message of a listed type with a known code sets no warning (43_icmp_classify.md R204, R206). -/
theorem State.classified_listed {c : IcmpClass} (hc : c ≠ .unknown) (s : State) :
    s.classified c true = { s with ic := { s.ic with cls := c, codeKnown := true } } := by
  simp [State.classified, State.warnUnkType, State.warnUnkCode, hc]

/-- A listed class whose rule leaves the IC group `g` and parses no embedded datagram. -/
theorem runClass_plainEnd {c : IcmpClass} {code : Byte} {s t : State} {g : IcGroup} {o : CmdOutcome} (hc : c ≠ .unknown)
    (hr : classRule c code { s with ic := { s.ic with cls := c, codeKnown := true } } = ({ t with ic := g }, o)) :
    runClass c code true s = plainEnd g o t := by
  rw [runClass, State.classified_listed hc, hr]
  rfl

/-- A listed class whose rule leaves the IC group `g` and then parses the embedded datagram behind the same common header
(43_icmp_classify.md R227). -/
theorem runClass_errorReportEnd {c : IcmpClass} {code : Byte} {s : State} {g : IcGroup} (hc : c ≠ .unknown)
    (hoff : g.off = s.ic.off) (hlen : g.len = s.ic.len)
    (hr : classRule c code { s with ic := { s.ic with cls := c, codeKnown := true } }
      = (State.parseEmbedded { s with ic := g }, .ok)) :
    runClass c code true s = errorReportEnd g false s := by
  rw [runClass, State.classified_listed hc, hr]
  simp only [State.parseEmbedded, IcGroup.limit, hoff, hlen]
  rfl

/-- Settles O22: the two branches of the pairing check. -/
theorem echoReplyPairingCheck : Obligations.EchoReplyPairingCheck := by
  intro code s
  refine ⟨congrArg _ (decodeIcmp_key 0 code), ?_⟩
  split
  · next h => exact congrArg Host.Outcome.next (runClass_plainEnd (c := .echoReply) nofun (if_neg (not_not.2 h)))
  · next h => exact congrArg Host.Outcome.next (runClass_plainEnd (c := .echoReply) nofun (if_pos h))

/-- Settles O23. -/
theorem echoRequestReportsPayload : Obligations.EchoRequestReportsPayload := fun code _ =>
  ⟨congrArg _ (decodeIcmp_key 8 code), congrArg Host.Outcome.next (runClass_plainEnd (c := .echoRequest) nofun rfl)⟩

/-- Settles O25. -/
theorem sourceQuenchRow : Obligations.SourceQuenchRow := fun code _ =>
  ⟨congrArg _ (decodeIcmp_key 4 code),
    congrArg Host.Outcome.next (runClass_errorReportEnd (c := .sourceQuench) nofun rfl rfl rfl)⟩

/-- Settles O27. -/
theorem routerAdvertisementRow : Obligations.RouterAdvertisementRow := fun code _ =>
  ⟨congrArg _ (decodeIcmp_key 9 code),
    congrArg Host.Outcome.next (runClass_plainEnd (c := .routerAdvertisement) nofun rfl)⟩

/-- Settles O30. -/
theorem parameterProblemRow : Obligations.ParameterProblemRow := fun code _ =>
  ⟨congrArg _ (decodeIcmp_key 12 code),
    congrArg Host.Outcome.next (runClass_errorReportEnd (c := .parameterProblem) nofun rfl rfl rfl)⟩

/-- Settles O31: the mask ends 12 bytes into the message, and a shorter one only warns. -/
theorem addressMaskReplyRow : Obligations.AddressMaskReplyRow := by
  intro code s
  refine ⟨congrArg _ (decodeIcmp_key 18 code), fun hlong => ?_, fun hshort => ?_⟩
  · exact congrArg Host.Outcome.next (runClass_plainEnd (c := .addressMaskReply) nofun (if_pos hlong))
  · exact congrArg Host.Outcome.next (runClass_plainEnd (c := .addressMaskReply) nofun (if_neg (Nat.not_le.2 hshort)))

end Sys2Proof.Machine
end

section
/-! PROOFS. The embedded datagram (44_embedded_datagram.md): `emb_parse` warns of a damaged one, reports the header of a usable one
and the ports of TCP and UDP, from an EM group that is all zero (O33). -/

namespace Sys2Proof.Machine

/-- The test of the first embedded byte (44_embedded_datagram.md R251), as numbers. -/
theorem badFirstByte_iff (b : Byte) :
    (highNibble b ≠ 4 ∨ (lowNibble b).toNat < 5) ↔ ¬(b.toNat / 16 = 4 ∧ 5 ≤ b.toNat % 16) := by
  rw [Ne, highNibble_eq_four_iff, lowNibble_toNat]
  omega

/-- Case (a) of 44_embedded_datagram.md R252. -/
theorem embParse_of_short {e lim : Nat} (h : lim < e + 20) (s : State) : embParse e lim s = s.warnEmbBad := by
  rcases embParse_cases e lim s with ⟨-, hp⟩ | ⟨hlong, -⟩ | ⟨hlong, -⟩
  · exact hp
  all_goals omega

/-- Case (b) of 44_embedded_datagram.md R252. -/
theorem embParse_of_badFirstByte {e lim : Nat} {s : State} (hlong : e + 20 ≤ lim)
    (h : ¬((s.byte e).toNat / 16 = 4 ∧ 5 ≤ (s.byte e).toNat % 16)) : embParse e lim s = s.warnEmbBad := by
  have hbad := (badFirstByte_iff _).2 h
  rcases embParse_cases e lim s with ⟨hshort, -⟩ | ⟨-, -, hp⟩ | ⟨-, hversion, hihl, -⟩
  · omega
  · exact hp
  · exact absurd hbad (not_or.2 ⟨not_not.2 hversion, Nat.not_lt.2 hihl⟩)

/-- A usable header is reported; what comes after it turns on the protocol and on the place of the four port bytes
(44_embedded_datagram.md R251, R254). -/
theorem embParse_of_usableHeader {e lim : Nat} {s : State} (hlong : e + 20 ≤ lim)
    (h : (s.byte e).toNat / 16 = 4 ∧ 5 ≤ (s.byte e).toNat % 16) :
    embParse e lim s =
      if hasPorts (s.byte (e + 9)) then
        if e + headerBytes (s.byte e) + 4 ≤ lim then
          State.withPorts e (headerBytes (s.byte e)) { s with em := s.emHeaderOf e }
        else State.warnEmbBad { s with em := s.emHeaderOf e }
      else { s with em := s.emHeaderOf e } := by
  rcases embParse_cases e lim s with ⟨hshort, -⟩ | ⟨-, hbad, -⟩ | ⟨-, -, -, hp⟩
  · omega
  · exact absurd h ((badFirstByte_iff _).1 hbad)
  · rcases hp with ⟨hnone, hp⟩ | ⟨hports, hout, hp⟩ | ⟨hports, hin, hp⟩
    · rw [hp, if_neg (Bool.eq_false_iff.1 hnone)]
    · rw [hp, if_pos hports, if_neg (Nat.not_le.2 hout)]
    · rw [hp, if_pos hports, if_pos hin]

/-- The header reported over a zero EM group has no ports: all that `emb_parse` does not write stays 0. -/
theorem State.emHeaderOf_of_zero {s : State} (h : s.em = {}) (e : Nat) :
    s.emHeaderOf e =
      { embValid := true, off := BitVec.ofNat 16 e, hlen := BitVec.ofNat 6 ((s.byte e).toNat % 16 * 4),
        proto := s.byte (e + 9), src := s.be32 (e + 12), dst := s.be32 (e + 16) } := by
  rw [State.emHeaderOf, h, headerBytes_eq]

/-- Settles O33: the tests of `emb_parse` in their order, then the protocol and the place of the ports. -/
theorem embeddedDatagramParse : Obligations.EmbeddedDatagramParse := by
  intro e lim s hzero _
  refine ⟨fun hshort => embParse_of_short hshort s, fun hlong hbad => embParse_of_badFirstByte hlong hbad,
    fun hlong husable => ?_⟩
  rw [embParse_of_usableHeader hlong husable, State.emHeaderOf_of_zero hzero, headerBytes_eq]
  refine ⟨fun ⟨hnotTcp, hnotUdp⟩ => ?_, fun hproto hout => ?_, fun hproto hin => ?_⟩
  · exact if_neg (mt (hasPorts_iff _).1 (not_or.2 ⟨hnotTcp, hnotUdp⟩))
  · rw [if_pos ((hasPorts_iff _).2 hproto), if_neg (Nat.not_le.2 hout)]
    rfl
  · rw [if_pos ((hasPorts_iff _).2 hproto), if_pos hin]
    rfl

end Sys2Proof.Machine
end

section
/-! PROOFS. How a command is executed (45_control_commands.md): `NOP` at its write (O36), `CLEAR` (O37), and that an accepted
command completes (O56). For O56 each step either completes the pending command or is a host action that leaves it pending, one
action closer to its completion, with nothing worse ahead than before. -/

namespace Sys2Proof.Machine

/-! ## `NOP` and `CLEAR` -/

/-- Settles O36. -/
theorem nopChangesNothing : Obligations.NopChangesNothing := by
  refine ⟨rfl, fun _ => rfl, fun s rest he hs => ?_, fun s v rest he hs hd => ?_⟩
  · exact ⟨step_of_zero_write he hs, step_of_zero_write he hs⟩
  · exact step_wr32_holding he hs hd (by decide) rfl

/-- Settles O37. -/
theorem clearZeroesResultsAndStickyFlag : Obligations.ClearZeroesResultsAndStickyFlag := by
  refine ⟨rfl, fun s => ⟨rfl, fun t ht => ?_⟩⟩
  cases ht
  simp [statusWord, State.busy, outcomeNumber, errNumber, Status.cleared]

/-! ## The completion step -/

/-- The command selected by a word other than 0 ends with the engine idle and `DONE` set (45_control_commands.md R262). -/
theorem exec_command_ends {v : Word} {i : Instr} (hi : decode (.command v) = .ok i) (hv : v ≠ 0) (s : State) :
    ∃ t, exec i s = .next t ∧ t.engine = .idle ∧ t.status.done = true := by
  rcases decode_command_ok hi with rfl | rfl | rfl | rfl | rfl | rfl
  · obtain ⟨-, hword⟩ := encodeDecodeRoundTrip _ _ hi
    exact absurd (TableWord.command.inj hword).symm hv
  · obtain ⟨t, ht, hc, -⟩ := execCsum_frame s; exact ⟨t, ht, hc.engine, hc.done⟩
  · obtain ⟨t, ht, hc, -⟩ := execParseIp_frame s; exact ⟨t, ht, hc.engine, hc.done⟩
  · obtain ⟨t, ht, hc, -⟩ := execParseIcmp_frame s; exact ⟨t, ht, hc.engine, hc.done⟩
  · obtain ⟨t, ht, hc, -⟩ := execClassify_frame s; exact ⟨t, ht, hc.engine, hc.done⟩
  · exact ⟨_, rfl, rfl, rfl⟩

/-- The completion step of a pending word, reserved or not, ends its command (45_control_commands.md R262, R267). -/
theorem step_due_ends {s : State} {v : Word} (he : s.engine = .holding v) (hv : v ≠ 0)
    (hdue : s.host.script = [] ∨ s.host.delay = 0) :
    ∃ t, step s = .next t ∧ t.engine = .idle ∧ t.status.done = true := by
  have hturn := turn_of_due he hdue
  cases hi : decode (.command v) with
  | error r => exact ⟨_, step_of_decode_error hturn hi, rfl, rfl⟩
  | ok i =>
    rw [step_of_decode_ok hturn hi]
    exact exec_command_ends hi hv s

/-! ## The host's script while a command is pending -/

/-- A host action that neither stops the machine nor abandons a pending command, nor do the byte writes left of it if it is a
`PUTCSUM` (20_memory.md R72, R73, R75; 70_reset_and_hazards.md R311). -/
structure HarmlessAction (size : Nat) (a : HostAction) : Prop where
  legal : LegalAction size a
  putCsum : ∀ i, a = .putCsum i → i + 1 < size
  noReset : ∀ p, a ≠ .reset p

theorem HarmlessAction.wr8 {size i : Nat} (hi : i < size) (b : Byte) : HarmlessAction size (.wr8 i b) := ⟨hi, nofun, nofun⟩

/-- The host actions that can still come before the completion step are harmless. -/
def HarmlessAhead (s : State) : Prop :=
  ∀ a ∈ s.host.script.take s.host.delay, HarmlessAction s.pbufSize a

/-- Taking a harmless action beside a pending command uses up one of the delay (log 4) and puts at most harmless actions of its
own before the rest of the script: a poll that must be repeated, the two byte writes of `PUTCSUM` (30_encoding.md R131). -/
theorem hostTurn_busy_host {a : HostAction} {rest : List HostAction} {s t : State} (hb : s.busy = true)
    (ha : HarmlessAction s.pbufSize a) (ht : hostTurn a rest s = .next t) :
    t.host.delay = s.host.delay - 1
    ∧ ∃ left, t.host.script = left ++ rest ∧ ∀ b ∈ left, HarmlessAction s.pbufSize b := by
  have hbusy : (s.taken rest).busy = true := hb
  rcases hostTurn_cases a rest s with ⟨-, hn⟩ | ⟨-, hn⟩
  · rcases hn with ⟨off, v, -, hn⟩ | ⟨off, -, hn⟩ | ⟨i, b, -, -, hn⟩ | ⟨i, -, -, hn⟩ | ⟨rfl, hn⟩ | ⟨i, rfl, hn⟩ | ⟨p, hp, -⟩
    · rw [hn, wr32_busy hbusy] at ht; cases ht; exact ⟨rfl, [], rfl, nofun⟩
    · rw [hn, rd32_eq] at ht; cases ht; exact ⟨rfl, [], rfl, nofun⟩
    · rw [hn, wr8_busy hbusy] at ht; cases ht; exact ⟨rfl, [], rfl, nofun⟩
    · rw [hn] at ht; cases ht; exact ⟨rfl, [], rfl, nofun⟩
    · rw [hn, waitPoll] at ht
      cases ht
      cases hdone : s.status.done
      · exact ⟨rfl, [.wait], rfl, List.forall_mem_singleton.2 ha⟩
      · exact ⟨rfl, [], rfl, nofun⟩
    · rw [hn, putCsumRead, rd32_eq] at ht
      cases ht
      have hi := ha.putCsum i rfl
      refine ⟨rfl, [_, _], rfl, List.forall_mem_cons.2 ⟨.wr8 (by omega) _, List.forall_mem_singleton.2 (.wr8 hi _)⟩⟩
    · exact absurd hp (ha.noReset p)
  · exact absurd ht (hn t)

/-- A harmless action brings a pending command one action closer to its completion and leaves only harmless actions before it. -/
theorem step_harmless_action {s : State} {v : Word} {a : HostAction} {rest : List HostAction} {d : Nat}
    (he : s.engine = .holding v) (hs : s.host.script = a :: rest) (hd : s.host.delay = d + 1) (hahead : HarmlessAhead s) :
    ∃ t, step s = .next t ∧ t.engine = .holding v ∧ t.host.delay = d ∧ HarmlessAhead t := by
  have hb := State.busy_of_holding he
  rw [HarmlessAhead, hs, hd, List.take_succ_cons, List.forall_mem_cons] at hahead
  obtain ⟨ha, hrest⟩ := hahead
  obtain ⟨t, ht⟩ := (hostTurn_goesOn_iff a rest s).2 ha.legal
  obtain ⟨hdelay, left, hscript, hleft⟩ := hostTurn_busy_host hb ha ht
  rw [hd, Nat.add_sub_cancel] at hdelay
  obtain ⟨w, host, rfl⟩ := hostTurn_busy_sameBlock hb ha.noReset ht
  refine ⟨_, (step_of_host_turn (turn_of_holding he hs (by omega))).trans ht, he, hdelay, fun b hmem => ?_⟩
  rw [hscript, hdelay, List.take_append] at hmem
  rcases List.mem_append.1 hmem with hmem | hmem
  · exact hleft b (List.mem_of_mem_take hmem)
  · exact hrest b (List.take_subset_take_left rest (Nat.sub_le _ _) hmem)

/-! ## Completion -/

theorem run_succ_of_step {s t : State} (h : step s = .next t) (k : Nat) :
    Sys2Proof.core.run (k + 1) s = Sys2Proof.core.run k t := by
  have hstep : Sys2Proof.core.step s = .next t := h
  simp only [Host.Core.run, hstep]

/-- At most `n` steps lead to a state with the engine idle and `DONE` set (45_control_commands.md R263). -/
def CompletesWithin (n : Nat) (s : State) : Prop :=
  ∃ k t, k ≤ n ∧ Sys2Proof.core.run k s = .next t ∧ t.engine = .idle ∧ t.status.done = true

theorem CompletesWithin.of_step {s t : State} {n : Nat} (hstep : step s = .next t) (h : CompletesWithin n t) :
    CompletesWithin (n + 1) s := by
  obtain ⟨k, u, hk, hrun, hend⟩ := h
  exact ⟨k + 1, u, Nat.succ_le_succ hk, (run_succ_of_step hstep k).trans hrun, hend⟩

theorem completesWithin_of_due {s : State} {v : Word} (he : s.engine = .holding v) (hv : v ≠ 0)
    (hdue : s.host.script = [] ∨ s.host.delay = 0) (n : Nat) : CompletesWithin (n + 1) s := by
  obtain ⟨t, hstep, hend⟩ := step_due_ends he hv hdue
  exact .of_step hstep ⟨0, t, Nat.zero_le n, rfl, hend⟩

/-- A pending command with only harmless actions before its completion step completes, by induction on the delay. -/
theorem completesWithin_of_harmlessAhead {v : Word} (hv : v ≠ 0) {d : Nat} {s : State} (he : s.engine = .holding v)
    (hd : s.host.delay = d) (hahead : HarmlessAhead s) : CompletesWithin (d + 1) s := by
  induction d generalizing s with
  | zero => exact completesWithin_of_due he hv (.inr hd) 0
  | succ d ih =>
    cases hs : s.host.script with
    | nil => exact completesWithin_of_due he hv (.inl hs) (d + 1)
    | cons a rest =>
      obtain ⟨t, hstep, het, hdt, haheadt⟩ := step_harmless_action he hs hd hahead
      exact .of_step hstep (ih het hdt haheadt)

/-- Settles O56: what the statement asks of the host's actions is that they are harmless. -/
theorem acceptedCommandCompletes : Obligations.AcceptedCommandCompletes := by
  intro s v he hv hahead
  refine completesWithin_of_harmlessAhead hv he rfl fun a hmem => ?_
  obtain ⟨hlegal, hput, hreset⟩ := hahead a hmem
  exact ⟨hlegal, hput, hreset⟩

end Sys2Proof.Machine
end

section
/-! PROOFS. Reset (70_reset_and_hazards.md): what the reset event does from any state (O49), and what the commands answer where
no packet was loaded, as after reset (O50). -/

namespace Sys2Proof.Machine

/-! ## The reset event -/

/-- A reset that is not a power-on does not touch `PBUF` (70_reset_and_hazards.md R312). -/
theorem State.resetEvent_byte (s : State) : (s.resetEvent false).byte = s.byte :=
  State.byte_congr rfl rfl

/-- After a power-on no byte dates from before it (70_reset_and_hazards.md R312, log 2, log 10). -/
theorem State.resetEvent_powerOn_byte (s : State) (i : Nat) :
    (s.resetEvent true).byte i = Config.powerOnByte (s.powerCycles + 1) i := rfl

/-- The reset event is taken like any action of the host side, whatever the engine holds (70_reset_and_hazards.md R311). -/
theorem step_of_reset_turn {s : State} {p : Bool} {rest : List HostAction} (h : turn s = .host (.reset p) rest) :
    step s = .next ((s.taken rest).resetEvent p) :=
  step_of_host_turn h

/-- Settles O49: the step is the reset event, after which every register reads as after power-on (O48). -/
theorem resetEventAbandonsTheCommand : Obligations.ResetEventAbandonsTheCommand := by
  intro s p rest hturn
  obtain ⟨-, -, hevent, -⟩ := resetLeavesRegistersZero
  obtain ⟨hregs, hidle⟩ := hevent (s.taken rest) p
  refine ⟨_, step_of_reset_turn hturn, hregs, hidle, rfl, ?_, ?_⟩
  · rintro rfl i
    exact congrFun (s.taken rest).resetEvent_byte i
  · rintro rfl i
    exact (s.taken rest).resetEvent_powerOn_byte i

/-! ## No packet -/

/-- Settles O50: `CSUM` has a legal empty range (O13), the two header parses have fewer than 20 bytes (O16, O19), and
`PARSE_ICMP` has a legal range of fewer than 8 bytes (O17). -/
theorem commandsWithNoPacket : Obligations.CommandsWithNoPacket := by
  refine ⟨fun s hpkt hoff hlen => ?_, rfl, rfl, rfl⟩
  have hlegal : s.argOff.toNat + s.argLen.toNat ≤ s.pktLen.toNat := by simp [hpkt, hoff, hlen]
  have hshort : s.pktLen.toNat < 20 := by simp [hpkt]
  have hnone : s.argLen.toNat < 8 := by simp [hlen]
  obtain ⟨hcsum, -⟩ := csumStoresChecksumOrRaisesRange s
  obtain ⟨hparseIp, -⟩ := parseIpRefusesInOrder s
  obtain ⟨hclassify, -⟩ := classifyRefusesInOrder s
  obtain ⟨-, hparseIcmp⟩ := parseIcmpRefusesInOrder s
  refine ⟨⟨_, hcsum hlegal, ?_, rfl⟩, ⟨_, hparseIp hshort, rfl, rfl⟩, ⟨_, hclassify hshort, rfl, rfl⟩,
    ⟨_, hparseIcmp hlegal hnone, rfl, rfl⟩⟩
  rw [hlen]
  exact checksum_nil

end Sys2Proof.Machine
end
